-- ==== Sys2Proof/Word.lean ====
section
/-! DEFINITION. The word types of the block: the byte and word16 of 00_scope.md R7, the 32-bit command
word of 30_encoding.md R70 and the 16-bit response of R71. -/

namespace Sys2Proof

/-- A byte, 8 bits (R7). -/
abbrev Byte := BitVec 8

/-- A word16, 16 bits (R7): a frame address. -/
abbrev Word16 := BitVec 16

/-- A command word, 32 bits (R70). -/
abbrev CmdWord := BitVec 32

/-- A response to the host, 16 bits: ERR in bits 15:8 and VAL in bits 7:0 (R71). -/
abbrev Response := BitVec 16

/-- A device identifier, 8 bytes in wire and buffer order (R82). -/
abbrev Ident := Vector Byte 8

end Sys2Proof
end

