-- ==== Sys2Proof/Syntax.lean ====
section
/-! DEFINITION. The instructions: one constructor per row of spec/opcode_table.json (30_encoding.md R74). A constructor
carries the operand fields the command uses; unused fields are ignored (R73) and are not part of the instruction. -/

namespace Sys2Proof

/-- The commands of the block (R74). -/
inductive Instr where
  /-- NOP (44_host_access.md R190) -/
  | nop
  /-- CRC_INIT (41_crc.md R101) -/
  | crcInit
  /-- CRC_UPDATE D (R102) -/
  | crcUpdate (d : Byte)
  /-- CRC_CHECK_ID (R103) -/
  | crcCheckId
  /-- FC_BUILD_READ A (42_frame_codec.md R120) -/
  | fcBuildRead (a : Word16)
  /-- FC_BUILD_WRITE A, D (R121) -/
  | fcBuildWrite (a : Word16) (d : Byte)
  /-- FC_VALIDATE D (R122) -/
  | fcValidate (d : Byte)
  /-- FC_VALIDATE_BUS (R123) -/
  | fcValidateBus
  /-- FC_SEND_READ A (R124) -/
  | fcSendRead (a : Word16)
  /-- FC_SEND_WRITE A, D (R125) -/
  | fcSendWrite (a : Word16) (d : Byte)
  /-- FC_SEND_WRITE_NEXT D (R126) -/
  | fcSendWriteNext (d : Byte)
  /-- FC_READBACK D (R127) -/
  | fcReadback (d : Byte)
  /-- TX_RESET (43_transceiver.md R160) -/
  | txReset
  /-- TX_WRITE_BIT D[0] (R161) -/
  | txWriteBit (v : Bool)
  /-- TX_READ_BIT (R162) -/
  | txReadBit
  /-- TX_WRITE_BYTE D (R163) -/
  | txWriteByte (d : Byte)
  /-- TX_READ_BYTE (R164) -/
  | txReadByte
  /-- TX_WRITE_BYTES len (R165) -/
  | txWriteBytes (len : Byte)
  /-- TX_SKIP (R166) -/
  | txSkip
  /-- TX_SEARCH (R167) -/
  | txSearch
  /-- TX_RESET_SEARCH (R168) -/
  | txResetSearch
  /-- FB_WR idx, D (44_host_access.md R191) -/
  | fbWr (idx : Word16) (d : Byte)
  /-- FB_RD idx (R192) -/
  | fbRd (idx : Word16)
  /-- SET_LEN len (R193) -/
  | setLen (len : Byte)
  /-- REG_RD sel (R194) -/
  | regRd (sel : Byte)
deriving DecidableEq, Repr

end Sys2Proof
end

