-- ==== Sys2Proof/WellFormed.lean ====
section
/-! DEFINITION. Which instructions are well formed: those whose operand lies in the range 30_encoding.md R72 gives it.
The constructors' types already carry the field widths (R70), so every instruction has an encoding. An instruction that is
not well formed still decodes and runs: it is refused by value, with E_OPERAND (R76, 60_exceptions.md R211). -/

namespace Sys2Proof

/-- The range checks of R72: index below 8, length at most 8, selector at most 0x09. -/
def Instr.wellFormed : Instr → Bool
  | .fbWr idx _ => decide (idx.toNat < 8)
  | .fbRd idx => decide (idx.toNat < 8)
  | .txWriteBytes len => decide (len.toNat ≤ 8)
  | .setLen len => decide (len.toNat ≤ 8)
  | .regRd sel => decide (sel.toNat ≤ 0x09)
  | .nop => true
  | .crcInit => true
  | .crcUpdate _ => true
  | .crcCheckId => true
  | .fcBuildRead _ => true
  | .fcBuildWrite _ _ => true
  | .fcValidate _ => true
  | .fcValidateBus => true
  | .fcSendRead _ => true
  | .fcSendWrite _ _ => true
  | .fcSendWriteNext _ => true
  | .fcReadback _ => true
  | .txReset => true
  | .txWriteBit _ => true
  | .txReadBit => true
  | .txWriteByte _ => true
  | .txReadByte => true
  | .txSkip => true
  | .txSearch => true
  | .txResetSearch => true

end Sys2Proof
end

