-- ==== Sys2Proof/Decode.lean ====
section
/-! DEFINITION. Decoding and encoding of the command word (30_encoding.md R70-R77 and opcode_table.json). Decoding is total:
a word whose OP is not in the opcode map is refused by name, and the machine finishes it with E_ILLEGAL (R75). -/

namespace Sys2Proof

/-- Field OP, bits 31:24 (R70). -/
def opField (w : CmdWord) : Byte := w.extractLsb' 24 8

/-- Field A, bits 23:8 (R70). -/
def aField (w : CmdWord) : Word16 := w.extractLsb' 8 16

/-- Field D, bits 7:0 (R70). -/
def dField (w : CmdWord) : Byte := w.extractLsb' 0 8

/-- Bit D[0], the bit operand (R72). -/
def dBit (w : CmdWord) : Bool := w.getLsbD 0

/-- Why a word decodes to no instruction. -/
inductive DecodeError where
  /-- OP is not in the opcode map (R75). -/
  | illegalOpcode (op : Byte)
deriving DecidableEq, Repr

/-- The opcode map of R74. Every A and D value of a legal OP is decoded (R76); unused fields are ignored (R73). -/
def decode (w : CmdWord) : Except DecodeError Instr :=
  match (opField w).toNat with
  | 0x00 => .ok .nop
  | 0x10 => .ok .crcInit
  | 0x11 => .ok (.crcUpdate (dField w))
  | 0x12 => .ok .crcCheckId
  | 0x20 => .ok (.fcBuildRead (aField w))
  | 0x21 => .ok (.fcBuildWrite (aField w) (dField w))
  | 0x22 => .ok (.fcValidate (dField w))
  | 0x23 => .ok .fcValidateBus
  | 0x24 => .ok (.fcSendRead (aField w))
  | 0x25 => .ok (.fcSendWrite (aField w) (dField w))
  | 0x26 => .ok (.fcSendWriteNext (dField w))
  | 0x27 => .ok (.fcReadback (dField w))
  | 0x30 => .ok .txReset
  | 0x31 => .ok (.txWriteBit (dBit w))
  | 0x32 => .ok .txReadBit
  | 0x33 => .ok (.txWriteByte (dField w))
  | 0x34 => .ok .txReadByte
  | 0x35 => .ok (.txWriteBytes (dField w))
  | 0x36 => .ok .txSkip
  | 0x37 => .ok .txSearch
  | 0x38 => .ok .txResetSearch
  | 0x40 => .ok (.fbWr (aField w) (dField w))
  | 0x41 => .ok (.fbRd (aField w))
  | 0x42 => .ok (.setLen (dField w))
  | 0x43 => .ok (.regRd (dField w))
  | _ => .error (.illegalOpcode (opField w))

/-- The word with the three fields given (R70). -/
def packWord (op : Byte) (a : Word16) (d : Byte) : CmdWord := op ++ a ++ d

/-- The opcode of each command (R74). -/
def Instr.opcode : Instr → Byte
  | .nop => 0x00
  | .crcInit => 0x10
  | .crcUpdate _ => 0x11
  | .crcCheckId => 0x12
  | .fcBuildRead _ => 0x20
  | .fcBuildWrite _ _ => 0x21
  | .fcValidate _ => 0x22
  | .fcValidateBus => 0x23
  | .fcSendRead _ => 0x24
  | .fcSendWrite _ _ => 0x25
  | .fcSendWriteNext _ => 0x26
  | .fcReadback _ => 0x27
  | .txReset => 0x30
  | .txWriteBit _ => 0x31
  | .txReadBit => 0x32
  | .txWriteByte _ => 0x33
  | .txReadByte => 0x34
  | .txWriteBytes _ => 0x35
  | .txSkip => 0x36
  | .txSearch => 0x37
  | .txResetSearch => 0x38
  | .fbWr _ _ => 0x40
  | .fbRd _ => 0x41
  | .setLen _ => 0x42
  | .regRd _ => 0x43

/-- The A field an encoder writes: the address or index operand (R72), zero where the command has none (R73). -/
def Instr.aOperand : Instr → Word16
  | .fcBuildRead a => a
  | .fcBuildWrite a _ => a
  | .fcSendRead a => a
  | .fcSendWrite a _ => a
  | .fbWr idx _ => idx
  | .fbRd idx => idx
  | .nop => 0
  | .crcInit => 0
  | .crcUpdate _ => 0
  | .crcCheckId => 0
  | .fcValidate _ => 0
  | .fcValidateBus => 0
  | .fcSendWriteNext _ => 0
  | .fcReadback _ => 0
  | .txReset => 0
  | .txWriteBit _ => 0
  | .txReadBit => 0
  | .txWriteByte _ => 0
  | .txReadByte => 0
  | .txWriteBytes _ => 0
  | .txSkip => 0
  | .txSearch => 0
  | .txResetSearch => 0
  | .setLen _ => 0
  | .regRd _ => 0

/-- The D field an encoder writes: the data, length, bit or selector operand (R72), zero where the command has none (R73). -/
def Instr.dOperand : Instr → Byte
  | .crcUpdate d => d
  | .fcBuildWrite _ d => d
  | .fcValidate d => d
  | .fcSendWrite _ d => d
  | .fcSendWriteNext d => d
  | .fcReadback d => d
  | .txWriteBit v => if v then 1 else 0
  | .txWriteByte d => d
  | .txWriteBytes len => len
  | .fbWr _ d => d
  | .setLen len => len
  | .regRd sel => sel
  | .nop => 0
  | .crcInit => 0
  | .crcCheckId => 0
  | .fcBuildRead _ => 0
  | .fcValidateBus => 0
  | .fcSendRead _ => 0
  | .txReset => 0
  | .txReadBit => 0
  | .txReadByte => 0
  | .txSkip => 0
  | .txSearch => 0
  | .txResetSearch => 0
  | .fbRd _ => 0

/-- The command word of an instruction, unused fields zero (R70, R73, R74). -/
def encode (i : Instr) : CmdWord := packWord i.opcode i.aOperand i.dOperand

/-- What the decoder reads from a word numbered as opcode_table.json numbers it; bits above `nbits` are 0. The block sees a
command as one 32-bit value, never as bytes (R71). DEDUCED: log 13; safe. -/
def decodeTableWord (nbits w : Nat) : Option Instr :=
  match decode (BitVec.ofNat 32 (w % 2 ^ nbits)) with
  | .ok i => some i
  | .error _ => none

end Sys2Proof
end

