-- ==== Sys2Proof/Config.lean ====
section
/-! DEFINITION. What is fixed for a run and what the spec leaves open: the normative constants (00_scope.md R5),
the types of the OPEN parameters (R6), the bus events and bus transactions (10_state.md R38, 00_scope.md R10-R12),
and the free values: the bus oracle (20_memory.md R55-R57), an unnamed continuation-frame CRC scope (R6), and what a search carries on the
wire (43_transceiver.md R170). -/

namespace Sys2Proof

/-- One entry of the bus trace T (10_state.md R38). -/
inductive BusEvent where
  /-- BRESET(p): a bus reset with presence p. -/
  | reset (p : Bool)
  /-- BW(b): a byte written. -/
  | write (b : Byte)
  /-- BR(b): a byte read. -/
  | read (b : Byte)
  /-- BWB(v): a bit written. -/
  | writeBit (v : Bool)
  /-- BRB(v): a bit read. -/
  | readBit (v : Bool)
  /-- BSEARCH(found, id): one search step; `some id` is found = 1, `none` is found = 0, where the identifier
  means nothing (R55). DEDUCED: log 3; safe. -/
  | search (found : Option Ident)
  /-- SRESET: the marker of a search reset; no wire activity (43_transceiver.md R168). -/
  | searchReset
deriving DecidableEq, Repr

/-- The bus trace T: completed bus transactions, oldest first (R38). -/
abbrev Trace := List BusEvent

/-- A bus transaction about to be made: one constructor per bus primitive of 00_scope.md R10-R12. -/
inductive BusOp where
  | reset
  | write (b : Byte)
  | read
  | writeBit (v : Bool)
  | readBit
  | search
deriving DecidableEq, Repr

/-- The bus oracle: four answer functions of the whole trace at the moment of the draw (20_memory.md R55), and the
fifth choice, a stall, at every bus primitive (R57). The stall may depend on the trace and the transaction. -/
structure Oracle where
  presence : Trace → Bool
  readBit : Trace → Bool
  readByte : Trace → Byte
  search : Trace → Option Ident
  stalls : Trace → BusOp → Bool
deriving Inhabited

/-- Parameter CRC8_ALGO: any (poly, init, reflect, xorout) tuple (00_scope.md R6). With `reflect` the polynomial is
given in reflected form and bits go least significant first. What the tuple computes: Machine/Crc8.lean, log 5. -/
structure Crc8Algo where
  poly : Byte
  init : Byte
  reflect : Bool
  xorout : Byte
deriving DecidableEq, Repr

/-- The default DALLAS: reflected polynomial 0x8C, init 0x00, LSB-first, xorout 0x00 (R6, R14). -/
def Crc8Algo.dallas : Crc8Algo := { poly := 0x8C, init := 0x00, reflect := true, xorout := 0x00 }

/-- Parameter WR_NEXT_CRC_SCOPE: the bytes a continuation-frame echo CRC covers (R6, 90_conflicts.md C1). -/
inductive WrNextScope where
  /-- FRAME4 = [0x0F, addr[7:0], addr[15:8], data]; the default. -/
  | frame4
  /-- DATA_ONLY = [data]. -/
  | dataOnly
  /-- Any other function of the parameter's domain: the free value `Config.wrNextScope` (log 6). -/
  | unnamed
deriving DecidableEq, Repr

/-- The OPEN parameters of 00_scope.md R6, held in State so that a statement about every state is a statement about
every choice of them. DESIGN CHOICE: log 4; safe. -/
structure Params where
  /-- CRC8_ALGO. -/
  crc8 : Crc8Algo
  /-- WR_NEXT_CRC_SCOPE. -/
  wrNextScope : WrNextScope
  /-- SKIP_ROM_CMD. -/
  skipRom : Byte
  /-- BUS_ALWAYS_RETURNS. -/
  busAlwaysReturns : Bool
deriving DecidableEq, Repr

/-- The defaults of R6. -/
def Params.default : Params :=
  { crc8 := Crc8Algo.dallas, wrNextScope := .frame4, skipRom := 0xCC, busAlwaysReturns := false }

/-! The constants of R5. -/

/-- P_CAP: device memory capacity in bytes. No command checks an address against it (20_memory.md R61). -/
def Config.pCap : Nat := 128

/-- P_STATUS_SIZE: size in bytes of the device's status region. -/
def Config.pStatusSize : Nat := 8

/-- P_FAMILY: the expected family code. No command compares it (60_exceptions.md R227). -/
def Config.pFamily : Byte := 0x09

/-- OP_READ: first byte of a read frame. -/
def Config.opRead : Byte := 0xF0

/-- OP_WRITE: first byte of a write frame. -/
def Config.opWrite : Byte := 0x0F

/-- OP_STATUS: status-read command byte; no command uses it. -/
def Config.opStatus : Byte := 0xAA

/-- P_PULSE_US: programming-pulse width in microseconds; outside the block. -/
def Config.pPulseUs : Nat := 480

/-- P_ERASED: value of an erased byte. -/
def Config.pErased : Byte := 0xFF

/-- FREE VALUE: the bus oracle. It has no body: nothing can be proved of its answers, so a theorem about the machine
holds for every oracle (R55). DESIGN CHOICE: log 3; safe. -/
opaque Config.oracle : Oracle

/-- FREE VALUE: the bytes covered under `WrNextScope.unnamed`. DESIGN CHOICE: log 6; safe. -/
opaque Config.wrNextScope : Word16 → Byte → List Byte

/-- FREE VALUE: the presence bit in the reset of a search made after a trace; for the wire refinement only
(43_transceiver.md R170). PRESUMED: log 14; safe. -/
opaque Config.searchPresence : Trace → Bool

/-- FREE VALUE: the three bits of each bit-triplet of a search made after a trace; for the wire refinement only (R170,
91_not_in_source.md N5). PRESUMED: log 14; safe. -/
opaque Config.searchBit : Trace → Nat → Fin 3 → Bool

end Sys2Proof
end

