-- ==== Sys2Proof/Machine/State.lean ====
section
/-! DEFINITION. The state of the block (10_state.md R20, R46), the reasons a step can stop, and the state after block reset
(70_reset_and_hazards.md R240). -/

namespace Sys2Proof.Machine

/-- The write phase WPH (R28): 0 IDLE, 1 AWAIT_RB, 2 READY; 3 never occurs. -/
inductive Wph where
  | idle
  | awaitRb
  | ready
deriving DecidableEq, Repr

/-- The error codes of 60_exceptions.md R211. -/
inductive ErrCode where
  | eNone
  | eCrc
  | eVerify
  | eSeq
  | eOperand
  | eIllegal
deriving DecidableEq, Repr

/-- The kinds of model fault (R44, R216): there is one. -/
inductive FaultKind where
  /-- A command would have read a register holding no value (R30). -/
  | unwritten
deriving DecidableEq, Repr

/-- Why a step answers a fault. Only `step` answers one, and only in a state that has no further step: the command that
ran into the fault or the stall answered a next state that records it. -/
inductive Fault where
  /-- Answered by `step` in a state whose FAULTED is set (R44, R216); the arguments are what FAULTED holds. Safe: the
  model stops where hardware would go on with some value (92_eei_decisions.md D9). -/
  | faulted (kind : FaultKind) (pc : Nat)
  /-- Answered by `step` in a state whose last command stalled on the bus (00_scope.md R13, 60_exceptions.md R217): the
  run is stuck. Safe: the source says the whole engine stalls. -/
  | busStalled
deriving DecidableEq, Repr

/-- Why a step is refused. -/
inductive Refusal where
  /-- An instruction whose meaning is not written, refused by exec's arm. No arm does so now. Safe. -/
  | notModelled (mnemonic : String)
  /-- Answered by `step` when the host's stream holds no command at pc: the run has ended (70_reset_and_hazards.md R251).
  Safe: the block does nothing without a command. -/
  | noCommand
deriving DecidableEq, Repr

/-- The state: the registers of R20, in its order, then the model's own four fields. A data register that nothing has
written since reset holds no value, `none` (R30): that is the reset value the spec states for it. -/
structure State where
  /-- FB[0..7], the frame buffer (R21). -/
  fb : Vector (Option Byte) 8
  /-- FLEN, 0..8 (R22). -/
  flen : Fin 9
  /-- CRC, the accumulator (R23). -/
  crc : Byte
  /-- RXB, the last byte any BusRead returned (R24). -/
  rxb : Option Byte
  /-- EXP, the expected value of the last comparison (R25). -/
  exp : Option Byte
  /-- OBS, the observed value of the last comparison (R26). -/
  obs : Option Byte
  /-- WADDR, the write address mirror (R27). -/
  waddr : Option Word16
  /-- WPH, the write phase (R28). -/
  wph : Wph
  /-- ERR, the error code of the last finished command (R29). -/
  err : Byte
  /-- PRES (R32). -/
  pres : Bool
  /-- FOUND (R33). -/
  found : Bool
  /-- CRC_OK (R34). -/
  crcOk : Bool
  /-- VFY_OK (R35). -/
  vfyOk : Bool
  /-- SEXH (R33). -/
  sexh : Bool
  /-- DIRTY (R36). -/
  dirty : Bool
  /-- pc, the command counter (R37). -/
  pc : Nat
  /-- T, the bus trace (R38). -/
  trace : Trace
  /-- FAULTED, the fault kind and the command's pc, or none (R44). -/
  faulted : Option (FaultKind × Nat)
  /-- MODEL'S OWN: a bus transaction of the last command never completed (00_scope.md R13). DESIGN CHOICE: log 8; safe. -/
  stalled : Bool
  /-- MODEL'S OWN: the responses returned to the host, oldest first (00_scope.md R16, 30_encoding.md R71).
  DESIGN CHOICE: log 9; safe. -/
  resps : List Response
  /-- MODEL'S OWN: the host's command stream, indexed by pc (R37). DESIGN CHOICE: log 1; safe. -/
  stream : List CmdWord
  /-- MODEL'S OWN: the OPEN parameters of 00_scope.md R6. DESIGN CHOICE: log 4; safe. -/
  params : Params
deriving DecidableEq, Repr

/-- The state after block reset (R240), with the parameters at their defaults (R6) and no command in the host's stream. -/
def State.reset : State :=
  { fb := #v[none, none, none, none, none, none, none, none]
    flen := 0
    crc := 0x00
    rxb := none
    exp := none
    obs := none
    waddr := none
    wph := .idle
    err := 0x00
    pres := false
    found := false
    crcOk := false
    vfyOk := false
    sexh := false
    dirty := false
    pc := 0
    trace := []
    faulted := none
    stalled := false
    resps := []
    stream := []
    params := Params.default }

/-- The start of a run with other parameters and a command stream (R251): CRC resets to CRC8_INIT of the algorithm
(92_eei_decisions.md D6; for xorout see log 5), everything else as `State.reset`. -/
def State.boot (p : Params) (cmds : List CmdWord) : State :=
  { State.reset with crc := p.crc8.init ^^^ p.crc8.xorout, params := p, stream := cmds }

end Sys2Proof.Machine
end

