-- ==== Sys2Proof/Machine/Crc8.lean ====
section
/-! DEFINITION. The CRC-8 of the block (00_scope.md R14) under parameter CRC8_ALGO (R6). The spec writes the step out for
the default DALLAS only; what the other tuples compute is PRESUMED (log 5). -/

namespace Sys2Proof.Machine

/-- `k` bits of a reflected step, least significant bit of `b` first: the loop of R14, with the tuple's polynomial in
place of 0x8C. -/
def lsbFirst (poly : Byte) : Nat → Byte → Byte → Byte
  | 0, c, _ => c
  | k + 1, c, b =>
    let mix := (c ^^^ b) &&& 1#8
    let c' := c >>> 1
    lsbFirst poly k (if mix = 1#8 then c' ^^^ poly else c') (b >>> 1)

/-- `k` bits of a step that is not reflected, most significant bit of `b` first. PRESUMED: log 5; unsafe for a tuple with
reflect = false. -/
def msbFirst (poly : Byte) : Nat → Byte → Byte → Byte
  | 0, c, _ => c
  | k + 1, c, b =>
    let mix := (c ^^^ b) &&& 0x80#8
    let c' := c <<< 1
    msbFirst poly k (if mix = 0x80#8 then c' ^^^ poly else c') (b <<< 1)

/-- CRC8_INIT, the CRC of no bytes (41_crc.md R105). PRESUMED for xorout other than 0x00: log 5. -/
def crc8Init (g : Crc8Algo) : Byte := g.init ^^^ g.xorout

/-- `crc8_step(c, b)` (R14). The final XOR is undone before the eight bits and done again after them, so that R14's fold,
41_crc.md R102 and R105 hold under every tuple. PRESUMED for xorout other than 0x00: log 5. -/
def crc8Step (g : Crc8Algo) (c b : Byte) : Byte :=
  (if g.reflect then lsbFirst g.poly 8 (c ^^^ g.xorout) b else msbFirst g.poly 8 (c ^^^ g.xorout) b) ^^^ g.xorout

/-- `crc8(bs) = foldl crc8_step CRC8_INIT bs` (R14). -/
def crc8 (g : Crc8Algo) (bs : List Byte) : Byte := bs.foldl (crc8Step g) (crc8Init g)

end Sys2Proof.Machine
end

