-- ==== Sys2Proof/Machine/Flags.lean ====
section
/-! DEFINITION. Codes and flags as the host sees them: error codes (60_exceptions.md R211), WPH codes (10_state.md R28), the
derived bits WACT and WRB and the STATUS byte (R31), and the response word (30_encoding.md R71). -/

namespace Sys2Proof.Machine

/-- The number of an error code (R211). -/
def errByte : ErrCode → Byte
  | .eNone => 0x00
  | .eCrc => 0x01
  | .eVerify => 0x02
  | .eSeq => 0x03
  | .eOperand => 0x04
  | .eIllegal => 0x05

/-- The code of a write phase (R28), as REG_RD 0x09 returns it. -/
def wphByte : Wph → Byte
  | .idle => 0x00
  | .awaitRb => 0x01
  | .ready => 0x02

/-- WACT: 1 iff WPH is not IDLE (R31). -/
def wact (s : State) : Bool := decide (s.wph ≠ .idle)

/-- WRB: 1 iff WPH is AWAIT_RB (R31). -/
def wrb (s : State) : Bool := decide (s.wph = .awaitRb)

/-- zext_8 of one bit (R7). -/
def bitByte (v : Bool) : Byte := if v then 1#8 else 0#8

/-- The STATUS byte (R31, 44_host_access.md R194). -/
def statusByte (s : State) : Byte :=
  bitByte s.pres ||| bitByte s.found <<< 1 ||| bitByte s.crcOk <<< 2 ||| bitByte s.vfyOk <<< 3
    ||| bitByte (wact s) <<< 4 ||| bitByte (wrb s) <<< 5 ||| bitByte s.sexh <<< 6 ||| bitByte s.dirty <<< 7

/-- The response (e, v): ERR in bits 15:8, VAL in bits 7:0 (R71). -/
def response (e : ErrCode) (v : Byte) : Response := errByte e ++ v

end Sys2Proof.Machine
end

