-- ==== Sys2Proof/Machine/Operands.lean ====
section
/-! DEFINITION. The operand forms of 30_encoding.md R72. A range check turns the raw field into a typed operand, or into
nothing when the command is to be refused with E_OPERAND. Nothing is sign-extended, scaled or shifted. -/

namespace Sys2Proof.Machine

/-- A[7:0], the address byte sent first (20_memory.md R52). -/
def addrLo (a : Word16) : Byte := a.extractLsb' 0 8

/-- A[15:8], the address byte sent second (R52). -/
def addrHi (a : Word16) : Byte := a.extractLsb' 8 8

/-- The index operand: all 16 bits of A compared; none when 8 or more (R72). -/
def idxOperand (a : Word16) : Option (Fin 8) :=
  if h : a.toNat < 8 then some ⟨a.toNat, h⟩ else none

/-- The length operand: D unsigned; none when more than 8 (R72). -/
def lenOperand (d : Byte) : Option (Fin 9) :=
  if h : d.toNat < 9 then some ⟨d.toNat, h⟩ else none

/-- The registers REG_RD selects (10_state.md R41). -/
inductive Selector where
  | status
  | err
  | crc
  | exp
  | obs
  | rxb
  | waddrLo
  | waddrHi
  | flen
  | wph
deriving DecidableEq, Repr

/-- The selector operand (R72, R41): none when more than 0x09. -/
def selOperand (d : Byte) : Option Selector :=
  match d.toNat with
  | 0x00 => some .status
  | 0x01 => some .err
  | 0x02 => some .crc
  | 0x03 => some .exp
  | 0x04 => some .obs
  | 0x05 => some .rxb
  | 0x06 => some .waddrLo
  | 0x07 => some .waddrHi
  | 0x08 => some .flen
  | 0x09 => some .wph
  | _ => none

/-- The read frame of 30_encoding.md R78. -/
def readFrame (a : Word16) : List Byte := [Config.opRead, addrLo a, addrHi a]

/-- The write frame of R79. -/
def writeFrame (a : Word16) (d : Byte) : List Byte := [Config.opWrite, addrLo a, addrHi a, d]

/-- WR_NEXT_CRC_SCOPE(a, d): the bytes a continuation-frame echo CRC covers (00_scope.md R6, 42_frame_codec.md R126). -/
def wrNextBytes (sc : WrNextScope) (a : Word16) (d : Byte) : List Byte :=
  match sc with
  | .frame4 => writeFrame a d
  | .dataOnly => [d]
  | .unnamed => Config.wrNextScope a d

end Sys2Proof.Machine
end

