-- ==== Sys2Proof/Machine/Ops.lean ====
section
/-! DEFINITION. The shared operations: ending a command (finish), the one model fault (the block has no other exception and
no trap entry or return: 60_exceptions.md R219, R220), the bus primitives with their stall, the CRC comparison, and
the frame buffer's reads and writes. A primitive takes the rest of the command as its last argument, so that a command
that faults or stalls does no more (00_scope.md R10-R16). -/

namespace Sys2Proof.Machine

/-- `finish(e, v)` (R16): ERR, the response and pc. -/
def finish (e : ErrCode) (v : Byte) (s : State) : State :=
  { s with err := errByte e, resps := s.resps ++ [response e v], pc := s.pc + 1 }

/-- `raise Fault(UNWRITTEN, where)` (R16, 60_exceptions.md R216): FAULTED records the kind and the command's pc; nothing
else changes and the command does not finish. -/
def raiseUnwritten (s : State) : State := { s with faulted := some (.unwritten, s.pc) }

/-- Read a register that may hold no value (10_state.md R30): the rest of the command gets the value, or the fault is
raised. -/
def readVal {α : Type} (r : Option α) (s : State) (k : α → State) : State :=
  match r with
  | some v => k v
  | none => raiseUnwritten s

/-- An illegal command (30_encoding.md R75): E_ILLEGAL and no other effect. -/
def illegalCommand (_e : DecodeError) (s : State) : State := finish .eIllegal 0x00 s

/-! The bus. -/

/-- The command never finishes: what it did before stays, and the block has no further step (00_scope.md R13). -/
def markStalled (s : State) : State := { s with stalled := true }

/-- A bus transaction may stall only when BUS_ALWAYS_RETURNS is false (20_memory.md R57). -/
def busStalls (o : Oracle) (op : BusOp) (s : State) : Bool :=
  !s.params.busAlwaysReturns && o.stalls s.trace op

/-- Append an event to T (10_state.md R38). -/
def logEvent (e : BusEvent) (s : State) : State := { s with trace := s.trace ++ [e] }

/-- Start a bus transaction: it stalls, or the rest runs (R13). -/
def busDo (o : Oracle) (op : BusOp) (s : State) (k : State → State) : State :=
  if busStalls o op s then markStalled s else k s

/-- `BusWrite(b)` (R10). -/
def busWrite (o : Oracle) (b : Byte) (s : State) (k : State → State) : State :=
  busDo o (.write b) s fun s => k (logEvent (.write b) s)

/-- `BusWrite` of each byte of a list, in list order (20_memory.md R53). -/
def busWrites (o : Oracle) : List Byte → State → (State → State) → State
  | [], s, k => k s
  | b :: bs, s, k => busWrite o b s fun s => busWrites o bs s k

/-- `BusRead()` (R11): the draw, the event, RXB. -/
def busRead (o : Oracle) (s : State) (k : Byte → State → State) : State :=
  busDo o .read s fun s =>
    let b := o.readByte s.trace
    k b { logEvent (.read b) s with rxb := some b }

/-- `BusReset()` (R12). -/
def busReset (o : Oracle) (s : State) (k : Bool → State → State) : State :=
  busDo o .reset s fun s =>
    let p := o.presence s.trace
    k p (logEvent (.reset p) s)

/-- `BusWriteBit(v)` (R12). -/
def busWriteBit (o : Oracle) (v : Bool) (s : State) (k : State → State) : State :=
  busDo o (.writeBit v) s fun s => k (logEvent (.writeBit v) s)

/-- `BusReadBit()` (R12). -/
def busReadBit (o : Oracle) (s : State) (k : Bool → State → State) : State :=
  busDo o .readBit s fun s =>
    let v := o.readBit s.trace
    k v (logEvent (.readBit v) s)

/-- `BusSearch()` (R12). -/
def busSearch (o : Oracle) (s : State) (k : Option Ident → State → State) : State :=
  busDo o .search s fun s =>
    let r := o.search s.trace
    k r (logEvent (.search r) s)

/-! Comparisons. -/

/-- `CrcCheck` (R15): `expd` is the calculated value. -/
def crcCheck (expd obs : Byte) (s : State) : State :=
  if expd = obs then
    finish .eNone 0x01 { s with exp := some expd, obs := some obs, crcOk := true }
  else
    finish .eCrc 0x00 { s with exp := some expd, obs := some obs, crcOk := false, dirty := true, wph := .idle }

/-- The echo check of a write or continuation frame: a match opens the write sequence (42_frame_codec.md R125, R126). -/
def writeEchoCheck (expd obs : Byte) (s : State) : State :=
  crcCheck expd obs (if expd = obs then { s with wph := .awaitRb } else s)

/-! The frame buffer. -/

/-- The bytes of a list of cells, when every cell holds a value (10_state.md R30). -/
def allWritten : List (Option Byte) → Option (List Byte)
  | [] => some []
  | none :: _ => none
  | some b :: cs => (allWritten cs).map (b :: ·)

/-- The list FB[0..n-1] (00_scope.md R8), when each of its bytes holds a value. -/
def fbPrefix (n : Nat) (s : State) : Option (List Byte) := allWritten (s.fb.toList.take n)

/-- FB[0..2] and FLEN for the read frame of address `a` (42_frame_codec.md R120). -/
def putReadFrame (a : Word16) (s : State) : State :=
  { s with
    fb := ((s.fb.set 0 (some Config.opRead)).set 1 (some (addrLo a))).set 2 (some (addrHi a))
    flen := 3 }

/-- FB[0..3] and FLEN for the write frame of address `a` and data `d` (R121). -/
def putWriteFrame (a : Word16) (d : Byte) (s : State) : State :=
  { s with
    fb := (((s.fb.set 0 (some Config.opWrite)).set 1 (some (addrLo a))).set 2 (some (addrHi a))).set 3 (some d)
    flen := 4 }

/-! The host's stream. -/

/-- The command word at pc, if the stream has one (10_state.md R37). -/
def fetch (s : State) : Option CmdWord := s.stream[s.pc]?

/-- Why the block has no further step, if it has none: FAULTED is set (R44) or a transaction stalled (R217). -/
def haltReason (s : State) : Option Fault :=
  match s.faulted with
  | some (k, p) => some (.faulted k p)
  | none => if s.stalled then some .busStalled else none

/-- The stream with `w` at index `n`; a stream shorter than `n` is filled with NOP words (44_host_access.md R190). -/
def placeWord : List CmdWord → Nat → CmdWord → List CmdWord
  | [], 0, w => [w]
  | _ :: ws, 0, w => w :: ws
  | [], n + 1, w => 0#32 :: placeWord [] n w
  | v :: ws, n + 1, w => v :: placeWord ws n w

end Sys2Proof.Machine
end

