-- ==== Sys2Proof/Machine/CrcValidator.lean ====
section
/-! DEFINITION. The CRC-8 validator commands (41_crc.md). -/

namespace Sys2Proof.Machine

/-- CRC_INIT (R101): the accumulator takes CRC8_INIT, which is also the response value. -/
def execCrcInit (s : State) : Host.Outcome State Fault Refusal :=
  .next (finish .eNone (crc8Init s.params.crc8) { s with crc := crc8Init s.params.crc8 })

/-- CRC_UPDATE (R102): one byte shifted into the accumulator, which is also the response value. -/
def execCrcUpdate (d : Byte) (s : State) : Host.Outcome State Fault Refusal :=
  .next (finish .eNone (crc8Step s.params.crc8 s.crc d) { s with crc := crc8Step s.params.crc8 s.crc d })

/-- CRC_CHECK_ID (R103): crc8 of FB[0..6] against FB[7]; the accumulator, FLEN and the bus are not used. -/
def execCrcCheckId (s : State) : Host.Outcome State Fault Refusal :=
  .next (readVal (fbPrefix 7 s) s fun bs => readVal s.fb[7] s fun obs => crcCheck (crc8 s.params.crc8 bs) obs s)

end Sys2Proof.Machine
end

