-- ==== Sys2Proof/Machine/FrameCodec.lean ====
section
/-! DEFINITION. The frame codec commands (42_frame_codec.md). A command that uses the bus has its effect written for any
oracle (`sendRead o`, ...), and its meaning is that effect under the free value `Config.oracle` (20_memory.md R55). -/

namespace Sys2Proof.Machine

/-- FC_BUILD_READ (R120): no bus activity; WPH unchanged; no check against P_CAP. -/
def execFcBuildRead (a : Word16) (s : State) : Host.Outcome State Fault Refusal :=
  .next (finish .eNone 0x03 (putReadFrame a s))

/-- FC_BUILD_WRITE (R121): no bus activity; WPH and WADDR unchanged. -/
def execFcBuildWrite (a : Word16) (d : Byte) (s : State) : Host.Outcome State Fault Refusal :=
  .next (finish .eNone 0x04 (putWriteFrame a d s))

/-- FC_VALIDATE (R122): crc8 of FB[0..FLEN-1] against D. -/
def execFcValidate (d : Byte) (s : State) : Host.Outcome State Fault Refusal :=
  .next (readVal (fbPrefix s.flen.val s) s fun bs => crcCheck (crc8 s.params.crc8 bs) d s)

/-- The effect of FC_VALIDATE_BUS (R123): as FC_VALIDATE, against a byte read from the bus; a match opens no write
sequence. -/
def validateBus (o : Oracle) (s : State) : State :=
  readVal (fbPrefix s.flen.val s) s fun bs =>
    busRead o s fun obs s => crcCheck (crc8 s.params.crc8 bs) obs s

/-- FC_VALIDATE_BUS (R123). -/
def execFcValidateBus (s : State) : Host.Outcome State Fault Refusal := .next (validateBus Config.oracle s)

/-- The effect of FC_SEND_READ (R124): WPH, FB and FLEN first, then three writes, the echo read and its check. -/
def sendRead (o : Oracle) (a : Word16) (s : State) : State :=
  busWrites o (readFrame a) (putReadFrame a { s with wph := .idle }) fun s =>
    busRead o s fun obs s => crcCheck (crc8 s.params.crc8 (readFrame a)) obs s

/-- FC_SEND_READ (R124). -/
def execFcSendRead (a : Word16) (s : State) : Host.Outcome State Fault Refusal := .next (sendRead Config.oracle a s)

/-- The effect of FC_SEND_WRITE (R125): FB, FLEN, WADDR and WPH first, then four writes, the echo read and its check. It
may be issued in any WPH. -/
def sendWrite (o : Oracle) (a : Word16) (d : Byte) (s : State) : State :=
  busWrites o (writeFrame a d) { putWriteFrame a d s with waddr := some a, wph := .idle } fun s =>
    busRead o s fun obs s => writeEchoCheck (crc8 s.params.crc8 (writeFrame a d)) obs s

/-- FC_SEND_WRITE (R125). -/
def execFcSendWrite (a : Word16) (d : Byte) (s : State) : Host.Outcome State Fault Refusal :=
  .next (sendWrite Config.oracle a d s)

/-- The effect of FC_SEND_WRITE_NEXT (R126): E_SEQ unless WPH is READY; else the frame of the next address is built, only
the data byte is sent, and the echo is checked over WR_NEXT_CRC_SCOPE. WADDR without a value under READY is reached by no
run (R132) and is the fault of R30 here. DEDUCED: log 10; safe. -/
def sendWriteNext (o : Oracle) (d : Byte) (s : State) : State :=
  if s.wph = .ready then
    readVal s.waddr s fun w =>
      busWrite o d { putWriteFrame (w + 1) d s with waddr := some (w + 1), wph := .idle } fun s =>
        busRead o s fun obs s =>
          writeEchoCheck (crc8 s.params.crc8 (wrNextBytes s.params.wrNextScope (w + 1) d)) obs s
  else
    finish .eSeq 0x00 s

/-- FC_SEND_WRITE_NEXT (R126). -/
def execFcSendWriteNext (d : Byte) (s : State) : Host.Outcome State Fault Refusal :=
  .next (sendWriteNext Config.oracle d s)

/-- The comparison of FC_READBACK (R127). -/
def readbackCheck (d obs : Byte) (s : State) : State :=
  if obs = d then
    finish .eNone 0x01 { s with exp := some d, obs := some obs, vfyOk := true, wph := .ready }
  else
    finish .eVerify 0x00 { s with exp := some d, obs := some obs, vfyOk := false, dirty := true, wph := .idle }

/-- The effect of FC_READBACK (R127): E_SEQ unless WPH is AWAIT_RB; else one byte is read and compared with D. -/
def readback (o : Oracle) (d : Byte) (s : State) : State :=
  if s.wph = .awaitRb then busRead o s fun obs s => readbackCheck d obs s else finish .eSeq 0x00 s

/-- FC_READBACK (R127). -/
def execFcReadback (d : Byte) (s : State) : Host.Outcome State Fault Refusal := .next (readback Config.oracle d s)

end Sys2Proof.Machine
end

