-- ==== Sys2Proof/Machine/HostAccess.lean ====
section
/-! DEFINITION. The host access commands (44_host_access.md). None uses the bus. -/

namespace Sys2Proof.Machine

/-- NOP (R190): nothing but finish, so ERR becomes E_NONE. -/
def execNop (s : State) : Host.Outcome State Fault Refusal := .next (finish .eNone 0x00 s)

/-- FB_WR (R191): E_OPERAND when the index is 8 or more; FLEN, WPH and WADDR unchanged. -/
def execFbWr (idx : Word16) (d : Byte) (s : State) : Host.Outcome State Fault Refusal :=
  .next (match idxOperand idx with
    | none => finish .eOperand 0x00 s
    | some i => finish .eNone 0x00 { s with fb := s.fb.set i.val (some d) })

/-- FB_RD (R192): E_OPERAND is checked before the fault (60_exceptions.md R214). -/
def execFbRd (idx : Word16) (s : State) : Host.Outcome State Fault Refusal :=
  .next (match idxOperand idx with
    | none => finish .eOperand 0x00 s
    | some i => readVal s.fb[i.val] s fun b => finish .eNone b s)

/-- SET_LEN (R193): no FB byte need be written. -/
def execSetLen (len : Byte) (s : State) : Host.Outcome State Fault Refusal :=
  .next (match lenOperand len with
    | none => finish .eOperand 0x00 s
    | some n => finish .eNone len { s with flen := n })

/-- The value a selector reads; none when the register holds no value (10_state.md R41). -/
def readReg (sel : Selector) (s : State) : Option Byte :=
  match sel with
  | .status => some (statusByte s)
  | .err => some s.err
  | .crc => some s.crc
  | .exp => s.exp
  | .obs => s.obs
  | .rxb => s.rxb
  | .waddrLo => s.waddr.map addrLo
  | .waddrHi => s.waddr.map addrHi
  | .flen => some (BitVec.ofNat 8 s.flen.val)
  | .wph => some (wphByte s.wph)

/-- REG_RD (R194): the register before this command finishes; ERR becomes E_NONE by finish. -/
def execRegRd (sel : Byte) (s : State) : Host.Outcome State Fault Refusal :=
  .next (match selOperand sel with
    | none => finish .eOperand 0x00 s
    | some r => readVal (readReg r s) s fun v => finish .eNone v s)

end Sys2Proof.Machine
end

