-- ==== Sys2Proof/Machine/Transceiver.lean ====
section
/-! DEFINITION. The single-wire transceiver commands (43_transceiver.md), each effect written for any oracle, each meaning
that effect under the free value `Config.oracle`. -/

namespace Sys2Proof.Machine

/-- The effect of TX_RESET (R160): ends a write sequence, clears DIRTY, leaves the search state; no presence is no error. -/
def txReset (o : Oracle) (s : State) : State :=
  busReset o s fun p s => finish .eNone (bitByte p) { s with pres := p, wph := .idle, dirty := false }

/-- TX_RESET (R160). -/
def execTxReset (s : State) : Host.Outcome State Fault Refusal := .next (txReset Config.oracle s)

/-- The effect of TX_WRITE_BIT (R161). -/
def txWriteBit (o : Oracle) (v : Bool) (s : State) : State :=
  busWriteBit o v s fun s => finish .eNone 0x00 s

/-- TX_WRITE_BIT (R161). -/
def execTxWriteBit (v : Bool) (s : State) : Host.Outcome State Fault Refusal := .next (txWriteBit Config.oracle v s)

/-- The effect of TX_READ_BIT (R162): RXB is not written. -/
def txReadBit (o : Oracle) (s : State) : State :=
  busReadBit o s fun v s => finish .eNone (bitByte v) s

/-- TX_READ_BIT (R162). -/
def execTxReadBit (s : State) : Host.Outcome State Fault Refusal := .next (txReadBit Config.oracle s)

/-- The effect of TX_WRITE_BYTE (R163): WPH is not changed. -/
def txWriteByte (o : Oracle) (d : Byte) (s : State) : State :=
  busWrite o d s fun s => finish .eNone 0x00 s

/-- TX_WRITE_BYTE (R163). -/
def execTxWriteByte (d : Byte) (s : State) : Host.Outcome State Fault Refusal := .next (txWriteByte Config.oracle d s)

/-- The effect of TX_READ_BYTE (R164). -/
def txReadByte (o : Oracle) (s : State) : State :=
  busRead o s fun b s => finish .eNone b s

/-- TX_READ_BYTE (R164). -/
def execTxReadByte (s : State) : Host.Outcome State Fault Refusal := .next (txReadByte Config.oracle s)

/-- The effect of TX_WRITE_BYTES (R165): E_OPERAND when len > 8; the fault when a byte holds no value; else FB[0..len-1]
in index order. FLEN is not used. -/
def txWriteBytes (o : Oracle) (len : Byte) (s : State) : State :=
  match lenOperand len with
  | none => finish .eOperand 0x00 s
  | some n => readVal (fbPrefix n.val s) s fun bs => busWrites o bs s fun s => finish .eNone len s

/-- TX_WRITE_BYTES (R165). -/
def execTxWriteBytes (len : Byte) (s : State) : Host.Outcome State Fault Refusal :=
  .next (txWriteBytes Config.oracle len s)

/-- The effect of TX_SKIP (R166): the byte SKIP_ROM_CMD is written. -/
def txSkip (o : Oracle) (s : State) : State :=
  busWrite o s.params.skipRom s fun s => finish .eNone 0x00 s

/-- TX_SKIP (R166). -/
def execTxSkip (s : State) : Host.Outcome State Fault Refusal := .next (txSkip Config.oracle s)

/-- What TX_SEARCH does with the answer (R167): an identifier goes to FB whole; not found is no error. -/
def searchResult (r : Option Ident) (s : State) : State :=
  match r with
  | some ident =>
    finish .eNone 0x01 { s with wph := .idle, fb := ident.map some, flen := 8, found := true, sexh := false }
  | none => finish .eNone 0x00 { s with wph := .idle, found := false, sexh := true }

/-- The effect of TX_SEARCH (R167). -/
def txSearch (o : Oracle) (s : State) : State :=
  busSearch o s fun r s => searchResult r s

/-- TX_SEARCH (R167). -/
def execTxSearch (s : State) : Host.Outcome State Fault Refusal := .next (txSearch Config.oracle s)

/-- TX_RESET_SEARCH (R168): the marker SRESET and SEXH; no wire transaction, so no stall. -/
def execTxResetSearch (s : State) : Host.Outcome State Fault Refusal :=
  .next (finish .eNone 0x00 { logEvent .searchReset s with sexh := false })

end Sys2Proof.Machine
end

