-- ==== Sys2Proof/Machine/Dispatch.lean ====
section
/-! DEFINITION. The dispatch: one arm per command of 30_encoding.md R74. -/

namespace Sys2Proof.Machine

def exec (i : Instr) (s : State) : Host.Outcome State Fault Refusal :=
  match i with
  | .nop => Sys2Proof.Machine.execNop s
  | .crcInit => Sys2Proof.Machine.execCrcInit s
  | .crcUpdate d => Sys2Proof.Machine.execCrcUpdate d s
  | .crcCheckId => Sys2Proof.Machine.execCrcCheckId s
  | .fcBuildRead a => Sys2Proof.Machine.execFcBuildRead a s
  | .fcBuildWrite a d => Sys2Proof.Machine.execFcBuildWrite a d s
  | .fcValidate d => Sys2Proof.Machine.execFcValidate d s
  | .fcValidateBus => Sys2Proof.Machine.execFcValidateBus s
  | .fcSendRead a => Sys2Proof.Machine.execFcSendRead a s
  | .fcSendWrite a d => Sys2Proof.Machine.execFcSendWrite a d s
  | .fcSendWriteNext d => Sys2Proof.Machine.execFcSendWriteNext d s
  | .fcReadback d => Sys2Proof.Machine.execFcReadback d s
  | .txReset => Sys2Proof.Machine.execTxReset s
  | .txWriteBit v => Sys2Proof.Machine.execTxWriteBit v s
  | .txReadBit => Sys2Proof.Machine.execTxReadBit s
  | .txWriteByte d => Sys2Proof.Machine.execTxWriteByte d s
  | .txReadByte => Sys2Proof.Machine.execTxReadByte s
  | .txWriteBytes len => Sys2Proof.Machine.execTxWriteBytes len s
  | .txSkip => Sys2Proof.Machine.execTxSkip s
  | .txSearch => Sys2Proof.Machine.execTxSearch s
  | .txResetSearch => Sys2Proof.Machine.execTxResetSearch s
  | .fbWr idx d => Sys2Proof.Machine.execFbWr idx d s
  | .fbRd idx => Sys2Proof.Machine.execFbRd idx s
  | .setLen len => Sys2Proof.Machine.execSetLen len s
  | .regRd sel => Sys2Proof.Machine.execRegRd sel s

end Sys2Proof.Machine
end

