-- ==== Sys2Proof/Machine/Step.lean ====
section
/-! DEFINITION. One step of the block: one whole command of the host's stream (00_scope.md R19, 20_memory.md R63). -/

namespace Sys2Proof.Machine

/-- One step. A faulted or stalled state has no further step (10_state.md R44, 60_exceptions.md R217). At the stream's end
the run has ended (70_reset_and_hazards.md R251). Else the word at pc is decoded and run; an illegal word is a command too
(30_encoding.md R75). exec itself advances pc, when the command finishes. -/
def step (s : State) : Host.Outcome State Fault Refusal :=
  match haltReason s with
  | some f => .fault f
  | none =>
    match fetch s with
    | none => .refused .noCommand
    | some w =>
      match decode w with
      | .ok i => exec i s
      | .error e => .next (illegalCommand e s)

/-- `s` with the command word `w` (bits above `nbits` zero) as the next command of the host's stream. The host hands the
block its commands from outside (30_encoding.md R71); this stands for that. DESIGN CHOICE: log 1; safe. -/
def State.withFetchWord (s : State) (nbits w : Nat) : State :=
  { s with stream := placeWord s.stream s.pc (BitVec.ofNat 32 (w % 2 ^ nbits)) }

end Sys2Proof.Machine
end

