-- ==== Sys2Proof/Machine/HostSequences.lean ====
section
/-! DEFINITION. The host sequences of 30_encoding.md R85 and 43_transceiver.md R169: host control flow around the block's
commands. They are no commands of the block; `runHost` issues their commands one after another (log 16). -/

namespace Sys2Proof.Machine

/-- One item of a host sequence. -/
inductive HostItem where
  /-- Issue a command. -/
  | cmd (i : Instr)
  /-- `if ERR ≠ E_NONE: stop`. -/
  | stopOnError
  /-- Go on only if FOUND = 1 (the test of ENUM_STEP). -/
  | stopUnlessFound
  /-- The external programming pulse: no command, and nothing the block can see (70_reset_and_hazards.md R244). -/
  | pulse
deriving DecidableEq, Repr

/-- SELECT_SKIP. -/
def selectSkip : List HostItem := [.cmd .txReset, .cmd .txSkip]

/-- ENUM_STEP. -/
def enumStep : List HostItem := [.cmd .txSearch, .stopUnlessFound, .cmd .crcCheckId]

/-- READ_MEM a, n. -/
def readMem (a : Word16) (n : Nat) : List HostItem :=
  [.cmd (.fcSendRead a), .stopOnError] ++ List.replicate n (.cmd .txReadByte)

/-- WRITE_FIRST a, d. -/
def writeFirst (a : Word16) (d : Byte) : List HostItem :=
  [.cmd (.fcSendWrite a d), .stopOnError, .pulse, .cmd (.fcReadback d)]

/-- WRITE_NEXT d. -/
def writeNext (d : Byte) : List HostItem :=
  [.cmd (.fcSendWriteNext d), .stopOnError, .pulse, .cmd (.fcReadback d)]

/-- The FB_WR commands of LOAD_FB, from index `k` on. -/
def loadFrom : Nat → List Byte → List HostItem
  | _, [] => []
  | k, b :: bs => .cmd (.fbWr (BitVec.ofNat 16 k) b) :: loadFrom (k + 1) bs

/-- LOAD_FB b0, ..., bk with k ≤ 7: 1 to 8 bytes. -/
def loadFb (bs : List Byte) : List HostItem :=
  loadFrom 0 bs ++ [.cmd (.setLen (BitVec.ofNat 8 bs.length))]

/-- CRC_OF b0, ..., bk. -/
def crcOf (bs : List Byte) : List HostItem := .cmd .crcInit :: bs.map fun b => .cmd (.crcUpdate b)

/-- A write batch: WRITE_FIRST, then WRITE_NEXT for each further byte, stopping at the first error (R131). -/
def writeBatch (a : Word16) : List Byte → List HostItem
  | [] => []
  | d :: ds => writeFirst a d ++ ds.flatMap fun d => .stopOnError :: writeNext d

/-- An enumeration of at most `n` steps (R169): TX_RESET_SEARCH, then ENUM_STEP until FOUND = 0 or an error. -/
def enumeration (n : Nat) : List HostItem :=
  .cmd .txResetSearch :: (List.replicate n (enumStep ++ [.stopOnError])).flatten

/-- Issue one command: its word becomes the stream's next, and the block steps. -/
def issue (i : Instr) (s : State) : Host.Outcome State Fault Refusal :=
  step (s.withFetchWord 32 (encode i).toNat)

/-- Run a host sequence. A command that faults or stalls returns no response, so the host goes no further. -/
def runHost : List HostItem → State → Host.Outcome State Fault Refusal
  | [], s => .next s
  | .cmd i :: items, s =>
    match issue i s with
    | .next t => if haltReason t = none then runHost items t else .next t
    | .fault f => .fault f
    | .refused r => .refused r
  | .stopOnError :: items, s => if s.err = errByte .eNone then runHost items s else .next s
  | .stopUnlessFound :: items, s => if s.found then runHost items s else .next s
  | .pulse :: items, s => runHost items s

end Sys2Proof.Machine
end

