-- ==== Sys2Proof/Machine/Wire.lean ====
section
/-! DEFINITION. The refinement of a bus event to bits on the wire (20_memory.md R54, 43_transceiver.md R170). No rule of the
block relies on it, and nothing in the machine uses it. -/

namespace Sys2Proof.Machine

/-- What one slot of the wire carries. -/
inductive WireSlot where
  /-- The pulse of a reset. -/
  | resetPulse
  /-- The presence-detect window after it. -/
  | presenceWindow (p : Bool)
  | writeSlot (v : Bool)
  | readSlot (v : Bool)
  /-- A bit-triplet of a search; R170 does not say what each of its three bits is. -/
  | triplet (a b c : Bool)
deriving DecidableEq, Repr

/-- The bits b[0], b[1], ..., b[7] of a byte, in wire order (R54). -/
def wireBits (b : Byte) : List Bool := (List.range 8).map b.getLsbD

/-- A byte written: 8 write slots, b[0] first (R170). -/
def writeSlots (b : Byte) : List WireSlot := (wireBits b).map .writeSlot

/-- A byte read: 8 read slots, b[0] first (R170). -/
def readSlots (b : Byte) : List WireSlot := (wireBits b).map .readSlot

/-- A reset: a pulse, then a presence-detect window (R170). -/
def resetSlots (p : Bool) : List WireSlot := [.resetPulse, .presenceWindow p]

/-- The search-ROM command byte of R170, whose value 93_implementation_defined.md section 2 notes. PRESUMED: log 14; safe. -/
def searchRomCmd : Byte := 0xF0

/-- A search: a reset, the search-ROM command byte and 64 bit-triplets (R170). What the window and the triplets carry is in no
source (91_not_in_source.md N5): free values of the trace before the search. PRESUMED: log 14; safe. -/
def searchSlots (t : Trace) : List WireSlot :=
  resetSlots (Config.searchPresence t) ++ writeSlots searchRomCmd ++
    (List.range 64).map fun k => .triplet (Config.searchBit t k 0) (Config.searchBit t k 1) (Config.searchBit t k 2)

/-- The slots of an event that follows the trace `t` (R170, R168). -/
def wireSlots (t : Trace) : BusEvent → List WireSlot
  | .reset p => resetSlots p
  | .write b => writeSlots b
  | .read b => readSlots b
  | .writeBit v => [.writeSlot v]
  | .readBit v => [.readSlot v]
  | .search _ => searchSlots t
  | .searchReset => []

/-- The slots of a list of events that follows the trace `t`: the wire as a whole is `traceSlots [] T`. -/
def traceSlots : Trace → Trace → List WireSlot
  | _, [] => []
  | t, e :: es => wireSlots t e ++ traceSlots (t ++ [e]) es

end Sys2Proof.Machine
end

