-- ==== Sys2Proof/Safety.lean ====
section
/-! DEFINITION. What claims about runs are stated in: running, halted and ended states (70_reset_and_hazards.md R251), the
invariants of the registers, and the host duties that the block's own state can show broken (R246, R247). The duties about
the programming pulse (R244, R245) are outside the block: log 11. -/

namespace Sys2Proof.Safety

open Sys2Proof.Machine

/-- No fault is recorded and no transaction stalled: the block can take a command. -/
def Running (s : State) : Prop := s.faulted = none ∧ s.stalled = false

/-- The block has no further step (10_state.md R44, 60_exceptions.md R217). -/
def Halted (s : State) : Prop := ¬ Running s

/-- The run has ended (R251): every command of the stream has finished and no fault or stall is recorded. -/
def Ended (s : State) : Prop := s.pc = s.stream.length ∧ Running s

/-- The last byte a trace shows read, none when there is none (10_state.md R24). -/
def lastRead (t : Trace) : Option Byte :=
  t.foldl (fun r e => match e with | .read b => some b | _ => r) none

/-- The presence answer of the last bus reset of a trace, 0 when there is none (R31, R32). -/
def lastPresence (t : Trace) : Bool :=
  t.foldl (fun p e => match e with | .reset q => q | _ => p) false

/-- The found answer of the last search of a trace, 0 when there is none (R31, R33). -/
def lastFound (t : Trace) : Bool :=
  t.foldl (fun f e => match e with | .search r => r.isSome | _ => f) false

/-- Whether the last search of a trace found nothing and no search reset came after it (R31, R33). -/
def searchExhausted (t : Trace) : Bool :=
  t.foldl (fun x e => match e with | .search r => r.isNone | .searchReset => false | _ => x) false

/-- The registers that record the bus agree with the trace, in a state whose last command stalled too: a stalled
transaction appends no event (00_scope.md R13). -/
def AgreesWithTrace (s : State) : Prop :=
  s.rxb = lastRead s.trace ∧ s.pres = lastPresence s.trace ∧ s.found = lastFound s.trace ∧
    s.sexh = searchExhausted s.trace

/-- The register invariant: a write phase other than IDLE has a write address (42_frame_codec.md R132), EXP and OBS are
written together (10_state.md R26), ERR holds a code of 60_exceptions.md R211, and the host has one response for each
finished command. -/
def RegistersOk (s : State) : Prop :=
  (s.wph ≠ .idle → s.waddr ≠ none) ∧ (s.exp = none ↔ s.obs = none) ∧ s.err.toNat ≤ 5 ∧ s.resps.length = s.pc

/-- Hand I/O on the bus: the commands a host must not issue while a write sequence is open (R246). -/
def handBusIo : Instr → Bool
  | .txWriteByte _ => true
  | .txReadByte => true
  | .txWriteBit _ => true
  | .txReadBit => true
  | .txWriteBytes _ => true
  | .txSkip => true
  | .nop => false
  | .crcInit => false
  | .crcUpdate _ => false
  | .crcCheckId => false
  | .fcBuildRead _ => false
  | .fcBuildWrite _ _ => false
  | .fcValidate _ => false
  | .fcValidateBus => false
  | .fcSendRead _ => false
  | .fcSendWrite _ _ => false
  | .fcSendWriteNext _ => false
  | .fcReadback _ => false
  | .txReset => false
  | .txSearch => false
  | .txResetSearch => false
  | .fbWr _ _ => false
  | .fbRd _ => false
  | .setLen _ => false
  | .regRd _ => false

/-- The duty of R246 broken: hand I/O while a write sequence is open puts the device and WPH out of step. -/
def breaksOpenSequence (i : Instr) (s : State) : Bool := handBusIo i && wact s

/-- The frame codec's commands that use the bus. -/
def framesOnBus : Instr → Bool
  | .fcValidateBus => true
  | .fcSendRead _ => true
  | .fcSendWrite _ _ => true
  | .fcSendWriteNext _ => true
  | .fcReadback _ => true
  | .nop => false
  | .crcInit => false
  | .crcUpdate _ => false
  | .crcCheckId => false
  | .fcBuildRead _ => false
  | .fcBuildWrite _ _ => false
  | .fcValidate _ => false
  | .txReset => false
  | .txWriteBit _ => false
  | .txReadBit => false
  | .txWriteByte _ => false
  | .txReadByte => false
  | .txWriteBytes _ => false
  | .txSkip => false
  | .txSearch => false
  | .txResetSearch => false
  | .fbWr _ _ => false
  | .fbRd _ => false
  | .setLen _ => false
  | .regRd _ => false

/-- The duty of R247 broken: hand I/O or a frame after a failure that no TX_RESET has followed. R247 names no state and no
list of commands by which a use is seen: that the failure is seen by DIRTY, which failures of CRC_CHECK_ID and FC_VALIDATE set
too, and that every bus command but TX_RESET and TX_SEARCH is a use, is the model's choice. DESIGN CHOICE: log 17; safe. -/
def usesFailedExchange (i : Instr) (s : State) : Bool := s.dirty && (handBusIo i || framesOnBus i)

end Sys2Proof.Safety
end

