-- ==== Sys2Proof/Certificates/Slice0/Obligations.lean ====
section
/-! DEFINITION. The statements for the provers. The helpers under Sys2Proof.Claims write the spec's shared primitives and tables
out on the fields of State, with no operation of the machine, so that a statement can be read beside its rule. A statement whose
conclusion is an equation with a record update says every field of the next state: what the update does not name is
unchanged. How the model records what the spec calls a response, a fault, a stall, the host's stream and the oracle's answers
is its own choice (logs 9, 7, 8, 1 and 3), and so is what the step of a CRC-8 other than DALLAS computes (log 5). -/

namespace Sys2Proof.Claims

open Sys2Proof.Machine Sys2Proof.Safety

/-- A command word from its three fields (30_encoding.md R70). -/
def word (op : Byte) (a : Word16) (d : Byte) : CmdWord := op ++ a ++ d

/-- A[7:0]. -/
def lo (a : Word16) : Byte := a.setWidth 8

/-- A[15:8]. -/
def hi (a : Word16) : Byte := (a >>> 8).setWidth 8

/-- `finish(e, v)` (00_scope.md R16) with the code's number: ERR, the response (30_encoding.md R71; the list is
the model's, log 9) and pc. -/
def returns (e v : Byte) (s : State) : State := { s with err := e, resps := s.resps ++ [e ++ v], pc := s.pc + 1 }

/-- The fault UNWRITTEN (60_exceptions.md R216): FAULTED and nothing else (log 7). -/
def faults (s : State) : State := { s with faulted := some (.unwritten, s.pc) }

/-- A command stuck in a stalled transaction (00_scope.md R13; the mark is the model's, log 8). -/
def stuck (s : State) : State := { s with stalled := true }

/-- Whether a transaction stalls: never when BUS_ALWAYS_RETURNS is true, else as the oracle chooses (20_memory.md R57). -/
def stalls (s : State) (op : BusOp) : Bool := !s.params.busAlwaysReturns && Config.oracle.stalls s.trace op

/-- A list of byte writes from a trace: stalled with the trace so far, or done. -/
def writeOut (always : Bool) (t : Trace) : List Byte → Trace ⊕ Trace
  | [] => .inr t
  | b :: bs =>
    if !always && Config.oracle.stalls t (.write b) then .inl t else writeOut always (t ++ [.write b]) bs

/-- Bytes sent in list order, then the rest (00_scope.md R10, 20_memory.md R53). -/
def sends (bs : List Byte) (s : State) (k : State → State) : State :=
  match writeOut s.params.busAlwaysReturns s.trace bs with
  | .inl t => stuck { s with trace := t }
  | .inr t => k { s with trace := t }

/-- A byte read (00_scope.md R11), then the rest. -/
def reads (s : State) (k : Byte → State → State) : State :=
  if stalls s .read then stuck s
  else
    k (Config.oracle.readByte s.trace)
      { s with trace := s.trace ++ [.read (Config.oracle.readByte s.trace)], rxb := some (Config.oracle.readByte s.trace) }

/-- `CrcCheck(calc, obs)` (00_scope.md R15). -/
def compared (c o : Byte) (s : State) : State :=
  if c = o then returns 0x00 0x01 { s with exp := some c, obs := some o, crcOk := true }
  else returns 0x01 0x00 { s with exp := some c, obs := some o, crcOk := false, dirty := true, wph := .idle }

/-- The echo check that opens a write sequence on a match (42_frame_codec.md R125, R126). -/
def echoed (c o : Byte) (s : State) : State :=
  if c = o then returns 0x00 0x01 { s with exp := some c, obs := some o, crcOk := true, wph := .awaitRb }
  else returns 0x01 0x00 { s with exp := some c, obs := some o, crcOk := false, dirty := true, wph := .idle }

/-- FB and FLEN with the read frame of `a` in FB[0..2] (30_encoding.md R78). -/
def withReadFrame (a : Word16) (s : State) : State :=
  { s with
    fb := #v[some 0xF0, some (lo a), some (hi a), s.fb[3], s.fb[4], s.fb[5], s.fb[6], s.fb[7]]
    flen := 3 }

/-- FB and FLEN with the write frame of `a`, `d` in FB[0..3] (30_encoding.md R79). -/
def withWriteFrame (a : Word16) (d : Byte) (s : State) : State :=
  { s with
    fb := #v[some 0x0F, some (lo a), some (hi a), some d, s.fb[4], s.fb[5], s.fb[6], s.fb[7]]
    flen := 4 }

/-- FB[0..n-1] is the list of bytes `bs` (00_scope.md R8). -/
def holds (s : State) (n : Nat) (bs : List Byte) : Prop := s.fb.toList.take n = bs.map some

/-- The STATUS byte by its bits, 7 first (10_state.md R31). -/
def status (s : State) : Byte :=
  BitVec.ofBool s.dirty ++ BitVec.ofBool s.sexh ++ BitVec.ofBool (decide (s.wph = .awaitRb)) ++
    BitVec.ofBool (decide (s.wph ≠ .idle)) ++ BitVec.ofBool s.vfyOk ++ BitVec.ofBool s.crcOk ++
    BitVec.ofBool s.found ++ BitVec.ofBool s.pres

/-- zext_8 of a bit. -/
def zext (v : Bool) : Byte := if v then 0x01 else 0x00

/-- Instructions one after another, each from the state the one before it answers. -/
def execAll : List Instr → State → Host.Outcome State Fault Refusal
  | [], s => .next s
  | i :: is, s =>
    match exec i s with
    | .next t => execAll is t
    | .fault f => .fault f
    | .refused r => .refused r

/-- The OP values outside the opcode map, by the ranges of 30_encoding.md R75. -/
def illegalOp (n : Nat) : Bool :=
  (0x01 ≤ n && n ≤ 0x0F) || (0x13 ≤ n && n ≤ 0x1F) || (0x28 ≤ n && n ≤ 0x2F) || (0x39 ≤ n && n ≤ 0x3F)
    || (0x44 ≤ n && n ≤ 0xFF)

/-- The write phase after a command that finished with code `e`, by the table of 42_frame_codec.md R129. -/
def phaseAfter (w : Wph) (i : Instr) (e : Byte) : Wph :=
  match i with
  | .fcSendWrite _ _ => if e = 0x00 then .awaitRb else .idle
  | .fcSendWriteNext _ => if e = 0x03 then w else if e = 0x00 then .awaitRb else .idle
  | .fcReadback _ => if e = 0x03 then w else if e = 0x00 then .ready else .idle
  | .fcSendRead _ => .idle
  | .crcCheckId => if e = 0x01 then .idle else w
  | .fcValidate _ => if e = 0x01 then .idle else w
  | .fcValidateBus => if e = 0x01 then .idle else w
  | .txReset => .idle
  | .txSearch => .idle
  | _ => w

/-- The commands that can finish with E_CRC (60_exceptions.md R211). -/
def crcChecker : Instr → Bool
  | .crcCheckId => true
  | .fcValidate _ => true
  | .fcValidateBus => true
  | .fcSendRead _ => true
  | .fcSendWrite _ _ => true
  | .fcSendWriteNext _ => true
  | _ => false

/-- When a command finishes with E_OPERAND (60_exceptions.md R211). -/
def operandOutOfRange : Instr → Bool
  | .fbWr a _ => decide (8 ≤ a.toNat)
  | .fbRd a => decide (8 ≤ a.toNat)
  | .setLen d => decide (8 < d.toNat)
  | .txWriteBytes d => decide (8 < d.toNat)
  | .regRd d => decide (9 < d.toNat)
  | _ => false

/-- When a command finishes with E_SEQ (60_exceptions.md R211). -/
def outOfPhase (i : Instr) (w : Wph) : Bool :=
  match i with
  | .fcSendWriteNext _ => decide (w ≠ .ready)
  | .fcReadback _ => decide (w ≠ .awaitRb)
  | _ => false

/-- When a command would read a register holding no value (60_exceptions.md R216). -/
def readsNoValue (i : Instr) (s : State) : Prop :=
  match i with
  | .crcCheckId => none ∈ s.fb.toList
  | .fcValidate _ => none ∈ s.fb.toList.take s.flen.val
  | .fcValidateBus => none ∈ s.fb.toList.take s.flen.val
  | .txWriteBytes d => d.toNat ≤ 8 ∧ none ∈ s.fb.toList.take d.toNat
  | .fbRd a => a.toNat < 8 ∧ s.fb.toList[a.toNat]? = some none
  | .regRd d =>
    (d = 0x03 ∧ s.exp = none) ∨ (d = 0x04 ∧ s.obs = none) ∨ (d = 0x05 ∧ s.rxb = none) ∨
      ((d = 0x06 ∨ d = 0x07) ∧ s.waddr = none)
  | _ => False

/-- The commands that write FB (10_state.md R21). -/
def writesFb : Instr → Bool
  | .fcBuildRead _ => true
  | .fcBuildWrite _ _ => true
  | .fcSendRead _ => true
  | .fcSendWrite _ _ => true
  | .fcSendWriteNext _ => true
  | .txSearch => true
  | .fbWr _ _ => true
  | _ => false

/-- The commands that write FLEN (10_state.md R22). -/
def writesFlen : Instr → Bool
  | .fcBuildRead _ => true
  | .fcBuildWrite _ _ => true
  | .fcSendRead _ => true
  | .fcSendWrite _ _ => true
  | .fcSendWriteNext _ => true
  | .txSearch => true
  | .setLen _ => true
  | _ => false

/-- The commands that read a byte from the bus, and so write RXB (10_state.md R24). -/
def readsByte : Instr → Bool
  | .fcValidateBus => true
  | .fcSendRead _ => true
  | .fcSendWrite _ _ => true
  | .fcSendWriteNext _ => true
  | .fcReadback _ => true
  | .txReadByte => true
  | _ => false

/-- FC_READBACK, the only writer of VFY_OK (10_state.md R35). -/
def isReadback : Instr → Bool
  | .fcReadback _ => true
  | _ => false

/-- FC_SEND_WRITE and FC_SEND_WRITE_NEXT, the writers of WADDR (10_state.md R27). -/
def sendsWrite : Instr → Bool
  | .fcSendWrite _ _ => true
  | .fcSendWriteNext _ => true
  | _ => false

/-- FC_SEND_WRITE, the only command that opens a sequence from IDLE (42_frame_codec.md R129). -/
def isSendWrite : Instr → Bool
  | .fcSendWrite _ _ => true
  | _ => false

/-- The commands that start no bus transaction and append nothing to T (20_memory.md R59). -/
def offBus : Instr → Bool
  | .nop => true
  | .crcInit => true
  | .crcUpdate _ => true
  | .crcCheckId => true
  | .fcBuildRead _ => true
  | .fcBuildWrite _ _ => true
  | .fcValidate _ => true
  | .fbWr _ _ => true
  | .fbRd _ => true
  | .setLen _ => true
  | .regRd _ => true
  | _ => false

/-- The commands that can write WPH (42_frame_codec.md R129). -/
def writesWph : Instr → Bool
  | .fcSendRead _ => true
  | .fcSendWrite _ _ => true
  | .fcSendWriteNext _ => true
  | .fcReadback _ => true
  | .txReset => true
  | .txSearch => true
  | .crcCheckId => true
  | .fcValidate _ => true
  | .fcValidateBus => true
  | _ => false

/-- The commands that can raise the fault UNWRITTEN (60_exceptions.md R216), and FC_SEND_WRITE_NEXT, which does so only in a
state that no run reaches (log 10). -/
def mayFault : Instr → Bool
  | .crcCheckId => true
  | .fcValidate _ => true
  | .fcValidateBus => true
  | .fcSendWriteNext _ => true
  | .txWriteBytes _ => true
  | .fbRd _ => true
  | .regRd _ => true
  | _ => false

/-- The bytes of a write frame (30_encoding.md R79). -/
def frame4 (a : Word16) (d : Byte) : List Byte := [0x0F, lo a, hi a, d]

/-- What byte `k` of a write batch puts on the wire: the first a whole write frame, a later one alone (30_encoding.md R79,
R80). -/
def batchSent (a : Word16) (k : Nat) (d : Byte) : List Byte := if k = 0 then frame4 a d else [d]

/-- The CRC that the echo of byte `k` of a batch at `a` must equal: over the frame of the first, and over what
WR_NEXT_CRC_SCOPE names of a later one, at the address k further on (30_encoding.md R81, 00_scope.md R6). -/
def batchEcho (p : Params) (a : Word16) (k : Nat) (d : Byte) : Byte :=
  crc8 p.crc8 (if k = 0 then frame4 a d else wrNextBytes p.wrNextScope (a + BitVec.ofNat 16 k) d)

/-- The bus events of write-batch bytes, from byte `k` on, that were sent, rightly echoed and read back equal. -/
def batchTrace (p : Params) (a : Word16) : Nat → List Byte → Trace
  | _, [] => []
  | k, d :: ds =>
    (batchSent a k d).map .write ++ [.read (batchEcho p a k d), .read d] ++ batchTrace p a (k + 1) ds

end Sys2Proof.Claims

open Sys2Proof Sys2Proof.Machine Sys2Proof.Safety Sys2Proof.Claims

/-! Host access (44_host_access.md). -/

/-- R190: NOP does nothing except finish. -/
def Obligations.NopDoesNothingExceptFinish : Prop :=
  (∀ a d, decode (word 0x00 a d) = .ok .nop) ∧ ∀ s, exec .nop s = .next (returns 0x00 0x00 s)

/-- R191: FB_WR writes FB[A] for an index below 8, and is refused with E_OPERAND for every other; what it wrote does not matter
to the next FC_SEND_WRITE_NEXT, which builds FB[0..3] from WADDR. -/
def Obligations.FbWrWritesOneByteOrRefuses : Prop :=
  (∀ a d, decode (word 0x40 a d) = .ok (.fbWr a d)) ∧
  (∀ s (a : Word16) d (h : a.toNat < 8),
    exec (.fbWr a d) s = .next (returns 0x00 0x00 { s with fb := s.fb.set a.toNat (some d) h })) ∧
  (∀ s (a : Word16) d, 8 ≤ a.toNat → exec (.fbWr a d) s = .next (returns 0x04 0x00 s)) ∧
  ∀ (s t : State) fb d w, s.wph = .ready → s.waddr = some w → exec (.fcSendWriteNext d) { s with fb := fb } = .next t →
    t.fb.toList.take 4 = [some 0x0F, some (lo (w + 1)), some (hi (w + 1)), some d]

/-- R192: FB_RD reads FB[A] for an index below 8 that holds a value, faults when it holds none, and is refused with
E_OPERAND, before any fault, for every other index. -/
def Obligations.FbRdReadsOneByteOrStops : Prop :=
  (∀ a d, decode (word 0x41 a d) = .ok (.fbRd a)) ∧
  (∀ s (a : Word16) b, s.fb.toList[a.toNat]? = some (some b) → exec (.fbRd a) s = .next (returns 0x00 b s)) ∧
  (∀ s (a : Word16), s.fb.toList[a.toNat]? = some none → exec (.fbRd a) s = .next (faults s)) ∧
  (∀ s (a : Word16), 8 ≤ a.toNat → exec (.fbRd a) s = .next (returns 0x04 0x00 s)) ∧
  ∀ i : Fin 8, State.reset.fb[i] = none

/-- R193: SET_LEN sets FLEN for a length of at most 8, and is refused with E_OPERAND for every other; FB plays no part, and a
later validation faults if a byte it covers holds no value. -/
def Obligations.SetLenSetsTheFrameLengthOrRefuses : Prop :=
  (∀ a d, decode (word 0x42 a d) = .ok (.setLen d)) ∧
  (∀ s (d : Byte) (h : d.toNat < 9), exec (.setLen d) s = .next (returns 0x00 d { s with flen := ⟨d.toNat, h⟩ })) ∧
  (∀ s (d : Byte), 8 < d.toNat → exec (.setLen d) s = .next (returns 0x04 0x00 s)) ∧
  ∀ s d, none ∈ s.fb.toList.take s.flen.val →
    exec (.fcValidate d) s = .next (faults s) ∧ exec .fcValidateBus s = .next (faults s)

/-- R194 and the selector table 10_state.md R41: REG_RD returns the selected register as it was before the command, faults
when it holds no value, and is refused with E_OPERAND for a selector above 0x09. -/
def Obligations.RegRdReturnsTheSelectedRegister : Prop :=
  (∀ a d, decode (word 0x43 a d) = .ok (.regRd d)) ∧
  (∀ s, exec (.regRd 0x00) s = .next (returns 0x00 (status s) s)) ∧
  (∀ s, exec (.regRd 0x01) s = .next (returns 0x00 s.err s)) ∧
  (∀ s, exec (.regRd 0x02) s = .next (returns 0x00 s.crc s)) ∧
  (∀ s v, s.exp = some v → exec (.regRd 0x03) s = .next (returns 0x00 v s)) ∧
  (∀ s v, s.obs = some v → exec (.regRd 0x04) s = .next (returns 0x00 v s)) ∧
  (∀ s v, s.rxb = some v → exec (.regRd 0x05) s = .next (returns 0x00 v s)) ∧
  (∀ s w, s.waddr = some w → exec (.regRd 0x06) s = .next (returns 0x00 (lo w) s)) ∧
  (∀ s w, s.waddr = some w → exec (.regRd 0x07) s = .next (returns 0x00 (hi w) s)) ∧
  (∀ s, exec (.regRd 0x08) s = .next (returns 0x00 (BitVec.ofNat 8 s.flen.val) s)) ∧
  (∀ s, exec (.regRd 0x09) s =
    .next (returns 0x00 (match s.wph with | .idle => 0x00 | .awaitRb => 0x01 | .ready => 0x02) s)) ∧
  (∀ s, s.exp = none → exec (.regRd 0x03) s = .next (faults s)) ∧
  (∀ s, s.obs = none → exec (.regRd 0x04) s = .next (faults s)) ∧
  (∀ s, s.rxb = none → exec (.regRd 0x05) s = .next (faults s)) ∧
  (∀ s, s.waddr = none → exec (.regRd 0x06) s = .next (faults s) ∧ exec (.regRd 0x07) s = .next (faults s)) ∧
  ∀ s (d : Byte), 0x09 < d.toNat → exec (.regRd d) s = .next (returns 0x04 0x00 s)

/-! CRC-8 validator (41_crc.md). -/

/-- R101: CRC_INIT loads CRC8_INIT, 0x00 under DALLAS, and returns it. -/
def Obligations.CrcInitLoadsTheInitialValue : Prop :=
  (∀ a d, decode (word 0x10 a d) = .ok .crcInit) ∧
  (∀ s, exec .crcInit s = .next (returns 0x00 (crc8Init s.params.crc8) { s with crc := crc8Init s.params.crc8 })) ∧
  crc8Init Crc8Algo.dallas = 0x00

/-- R102: CRC_UPDATE shifts D into the accumulator; under DALLAS a byte equal to the accumulator gives 0x00; and
CRC_INIT followed by CRC_UPDATE of each byte of a list leaves crc8 of the list. -/
def Obligations.CrcUpdateShiftsOneByteIn : Prop :=
  (∀ a d, decode (word 0x11 a d) = .ok (.crcUpdate d)) ∧
  (∀ s d, exec (.crcUpdate d) s =
    .next (returns 0x00 (crc8Step s.params.crc8 s.crc d) { s with crc := crc8Step s.params.crc8 s.crc d })) ∧
  (∀ c, crc8Step Crc8Algo.dallas c c = 0x00) ∧
  ∀ s bs, ∃ t, execAll (.crcInit :: bs.map .crcUpdate) s = .next t ∧ t.crc = crc8 s.params.crc8 bs

/-- R103: CRC_CHECK_ID compares crc8 of FB[0..6] with FB[7], whatever the family code and FLEN are; it faults when a byte
holds no value; under DALLAS an all-zero identifier has CRC 0x00. -/
def Obligations.CrcCheckIdComparesSevenBytesWithTheEighth : Prop :=
  (∀ a d, decode (word 0x12 a d) = .ok .crcCheckId) ∧
  (∀ s (ident : Ident), s.fb = ident.map some →
    exec .crcCheckId s = .next (compared (crc8 s.params.crc8 (ident.toList.take 7)) ident[7] s)) ∧
  (∀ s, none ∈ s.fb.toList → exec .crcCheckId s = .next (faults s)) ∧
  crc8 Crc8Algo.dallas (List.replicate 7 0x00) = 0x00

/-- R104: under DALLAS a list with its CRC appended has CRC zero, and so a last byte is the CRC of the bytes before it
exactly when the CRC over all of them is zero. -/
def Obligations.AppendedCrcLeavesZeroResidue : Prop :=
  (∀ bs, crc8 Crc8Algo.dallas (bs ++ [crc8 Crc8Algo.dallas bs]) = 0x00) ∧
  ∀ bs b, crc8 Crc8Algo.dallas bs = b ↔ crc8 Crc8Algo.dallas (bs ++ [b]) = 0x00

/-- 00_scope.md R14: under DALLAS a step is eight rounds of the loop R14 writes out, here as one fold over the bits of the
byte, least significant first. -/
def Obligations.DallasStepIsTheReflectedShift : Prop :=
  (∀ c b, crc8Step Crc8Algo.dallas c b =
    (List.range 8).foldl
      (fun (c : Byte) k => if (c.getLsbD 0 ^^ b.getLsbD k) = true then (c >>> 1) ^^^ 0x8C#8 else c >>> 1) c) ∧
  ∀ bs, crc8 Crc8Algo.dallas bs = bs.foldl (crc8Step Crc8Algo.dallas) 0x00

/-! Frame codec (42_frame_codec.md). -/

/-- R120: FC_BUILD_READ builds F0, A low, A high in FB[0..2] for every address, and touches neither the bus nor WPH. -/
def Obligations.BuildReadPutsTheReadFrame : Prop :=
  (∀ a d, decode (word 0x20 a d) = .ok (.fcBuildRead a)) ∧
  ∀ s a, exec (.fcBuildRead a) s = .next (returns 0x00 0x03 (withReadFrame a s))

/-- R121: FC_BUILD_WRITE builds 0F, A low, A high, D in FB[0..3], and touches neither the bus, WPH nor WADDR. -/
def Obligations.BuildWritePutsTheWriteFrame : Prop :=
  (∀ a d, decode (word 0x21 a d) = .ok (.fcBuildWrite a d)) ∧
  ∀ s a d, exec (.fcBuildWrite a d) s = .next (returns 0x00 0x04 (withWriteFrame a d s))

/-- R122: FC_VALIDATE compares crc8 of FB[0..FLEN-1] with D, faults when a covered byte holds no value, and with FLEN = 0
compares CRC8_INIT, 0x00 under DALLAS (41_crc.md R105). -/
def Obligations.ValidateComparesTheFrameCrc : Prop :=
  (∀ a d, decode (word 0x22 a d) = .ok (.fcValidate d)) ∧
  (∀ s d bs, holds s s.flen.val bs → exec (.fcValidate d) s = .next (compared (crc8 s.params.crc8 bs) d s)) ∧
  (∀ s d, none ∈ s.fb.toList.take s.flen.val → exec (.fcValidate d) s = .next (faults s)) ∧
  (∀ g, crc8 g [] = crc8Init g) ∧ crc8Init Crc8Algo.dallas = 0x00

/-- R123: FC_VALIDATE_BUS reads one byte and compares it with crc8 of FB[0..FLEN-1]; a fault comes before any bus activity;
the read may stall; on a bus that always returns it finishes when the covered bytes hold values; a match leaves WPH, also after a
write frame built and sent by hand. -/
def Obligations.ValidateBusComparesTheByteRead : Prop :=
  (∀ a d, decode (word 0x23 a d) = .ok .fcValidateBus) ∧
  (∀ s bs, holds s s.flen.val bs →
    exec .fcValidateBus s = .next (reads s fun obs s => compared (crc8 s.params.crc8 bs) obs s)) ∧
  (∀ s bs, holds s s.flen.val bs → s.params.busAlwaysReturns = true →
    exec .fcValidateBus s = .next (compared (crc8 s.params.crc8 bs) (Config.oracle.readByte s.trace)
      { s with
        trace := s.trace ++ [.read (Config.oracle.readByte s.trace)]
        rxb := some (Config.oracle.readByte s.trace) })) ∧
  (∀ s, none ∈ s.fb.toList.take s.flen.val → exec .fcValidateBus s = .next (faults s)) ∧
  ∀ s a d, s.params.busAlwaysReturns = true →
    let sent := s.trace ++ [.write 0x0F, .write (lo a), .write (hi a), .write d]
    ∃ t, execAll [.fcBuildWrite a d, .txWriteBytes 4, .fcValidateBus] s = .next t ∧
      t.trace = sent ++ [.read (Config.oracle.readByte sent)] ∧ t.waddr = s.waddr ∧
      t.exp = some (crc8 s.params.crc8 [0x0F, lo a, hi a, d]) ∧ (t.exp = t.obs → t.wph = s.wph)

/-- R124: FC_SEND_READ closes a write sequence, builds and transmits the read frame, and checks its echo; any of its four
transactions may stall. -/
def Obligations.SendReadTransmitsAndChecksTheEcho : Prop :=
  (∀ a d, decode (word 0x24 a d) = .ok (.fcSendRead a)) ∧
  (∀ s a, exec (.fcSendRead a) s =
    .next (sends [0xF0, lo a, hi a] (withReadFrame a { s with wph := .idle }) fun s =>
      reads s fun obs s => compared (crc8 s.params.crc8 [0xF0, lo a, hi a]) obs s)) ∧
  ∀ s a, s.params.busAlwaysReturns = true →
    let sent := s.trace ++ [.write 0xF0, .write (lo a), .write (hi a)]
    let obs := Config.oracle.readByte sent
    exec (.fcSendRead a) s =
      .next (compared (crc8 s.params.crc8 [0xF0, lo a, hi a]) obs
        { withReadFrame a s with wph := .idle, trace := sent ++ [.read obs], rxb := some obs })

/-- R125: FC_SEND_WRITE, in any write phase, builds and transmits the write frame, writes WADDR, and checks the echo; a match
opens a write sequence; any of its five transactions may stall. -/
def Obligations.SendWriteTransmitsAndOpensTheSequence : Prop :=
  (∀ a d, decode (word 0x25 a d) = .ok (.fcSendWrite a d)) ∧
  (∀ s a d, exec (.fcSendWrite a d) s =
    .next (sends [0x0F, lo a, hi a, d] { withWriteFrame a d s with waddr := some a, wph := .idle } fun s =>
      reads s fun obs s => echoed (crc8 s.params.crc8 [0x0F, lo a, hi a, d]) obs s)) ∧
  ∀ s a d, s.params.busAlwaysReturns = true →
    let sent := s.trace ++ [.write 0x0F, .write (lo a), .write (hi a), .write d]
    let obs := Config.oracle.readByte sent
    exec (.fcSendWrite a d) s =
      .next (echoed (crc8 s.params.crc8 [0x0F, lo a, hi a, d]) obs
        { withWriteFrame a d s with waddr := some a, wph := .idle, trace := sent ++ [.read obs], rxb := some obs })

/-- R126: FC_SEND_WRITE_NEXT is refused with E_SEQ unless WPH is READY; else it builds the frame of the next address (mod
2^16), transmits D alone, and checks the echo over WR_NEXT_CRC_SCOPE; either transaction may stall. READY with no WADDR, where
the model faults (log 10), is left out: R132 says that no run reaches it. -/
def Obligations.SendWriteNextContinuesTheSequence : Prop :=
  (∀ a d, decode (word 0x26 a d) = .ok (.fcSendWriteNext d)) ∧
  (∀ s d, s.wph ≠ .ready → exec (.fcSendWriteNext d) s = .next (returns 0x03 0x00 s)) ∧
  (∀ s d w, s.wph = .ready → s.waddr = some w →
    exec (.fcSendWriteNext d) s =
      .next (sends [d] { withWriteFrame (w + 1) d s with waddr := some (w + 1), wph := .idle } fun s =>
        reads s fun obs s =>
          echoed (crc8 s.params.crc8 (wrNextBytes s.params.wrNextScope (w + 1) d)) obs s)) ∧
  (∀ s d w, s.wph = .ready → s.waddr = some w → s.params.busAlwaysReturns = true →
    let sent := s.trace ++ [.write d]
    let obs := Config.oracle.readByte sent
    exec (.fcSendWriteNext d) s =
      .next (echoed (crc8 s.params.crc8 (wrNextBytes s.params.wrNextScope (w + 1) d)) obs
        { withWriteFrame (w + 1) d s with
          waddr := some (w + 1), wph := .idle, trace := sent ++ [.read obs], rxb := some obs })) ∧
  (∀ a d, wrNextBytes .frame4 a d = [0x0F, lo a, hi a, d] ∧ wrNextBytes .dataOnly a d = [d]) ∧
  (0xFFFF#16 + 1 : Word16) = 0x0000

/-- R127: FC_READBACK is refused with E_SEQ unless WPH is AWAIT_RB; else it reads one byte and compares it with D: a match
gives READY, a mismatch E_VERIFY, DIRTY and IDLE; the read may stall. -/
def Obligations.ReadbackComparesWithTheRequestedByte : Prop :=
  (∀ a d, decode (word 0x27 a d) = .ok (.fcReadback d)) ∧
  (∀ s d, s.wph ≠ .awaitRb → exec (.fcReadback d) s = .next (returns 0x03 0x00 s)) ∧
  (∀ s d, s.wph = .awaitRb → exec (.fcReadback d) s =
    .next (reads s fun obs s =>
      if obs = d then returns 0x00 0x01 { s with exp := some d, obs := some obs, vfyOk := true, wph := .ready }
      else returns 0x02 0x00
        { s with exp := some d, obs := some obs, vfyOk := false, dirty := true, wph := .idle })) ∧
  ∀ s d, s.wph = .awaitRb → s.params.busAlwaysReturns = true →
    let obs := Config.oracle.readByte s.trace
    let t : State := { s with trace := s.trace ++ [.read obs], rxb := some obs, exp := some d, obs := some obs }
    exec (.fcReadback d) s =
      .next (if obs = d then returns 0x00 0x01 { t with vfyOk := true, wph := .ready }
        else returns 0x02 0x00 { t with vfyOk := false, dirty := true, wph := .idle })

/-- R129: the write phase after a command that finishes is the one of the table, and after block reset it is IDLE. A command
that does not finish leaves it, or has closed the sequence before it stalled (R124 to R126). -/
def Obligations.WritePhaseFollowsItsTable : Prop :=
  (∀ i s t, exec i s = .next t → t.pc = s.pc + 1 → t.wph = phaseAfter s.wph i t.err) ∧
  (∀ i s t, exec i s = .next t → t.pc = s.pc → t.wph = s.wph ∨ (t.stalled = true ∧ t.wph = .idle)) ∧
  (∀ s t w e, s.stream[s.pc]? = some w → decode w = .error e → step s = .next t → t.wph = s.wph) ∧
  State.reset.wph = .idle

/-- R130: in every send command that finishes, the echo read follows the last frame byte with nothing between. R133: for the
read frame and the first write frame, the bytes that went on the wire are the bytes whose CRC is in EXP; for the
continuation frame the CRC covers WR_NEXT_CRC_SCOPE, which is the byte sent under DATA_ONLY. -/
def Obligations.EchoIsReadRightAfterTheBytesItCovers : Prop :=
  (∀ i s t, exec i s = .next t → t.pc = s.pc + 1 → (∃ a, i = .fcSendRead a) ∨ (∃ a d, i = .fcSendWrite a d) →
    ∃ bs obs, bs ≠ [] ∧ t.trace = s.trace ++ bs.map .write ++ [.read obs] ∧ t.obs = some obs ∧
      t.exp = some (crc8 s.params.crc8 bs)) ∧
  ∀ d s t w, exec (.fcSendWriteNext d) s = .next t → t.pc = s.pc + 1 → s.wph = .ready → s.waddr = some w →
    ∃ obs, t.trace = s.trace ++ [.write d] ++ [.read obs] ∧ t.obs = some obs ∧
      t.exp = some (crc8 s.params.crc8 (wrNextBytes s.params.wrNextScope (w + 1) d)) ∧
      (s.params.wrNextScope = .dataOnly → t.exp = some (crc8 s.params.crc8 [d]))

/-- R131: once a failure has left WPH at IDLE, no list of commands without FC_SEND_WRITE opens a sequence again, and every
FC_SEND_WRITE_NEXT after it is refused with E_SEQ and no bus activity. -/
def Obligations.ClosedSequenceSendsNothingMore : Prop :=
  ∀ is s t d, (∀ i ∈ is, isSendWrite i = false) → s.wph = .idle → execAll is s = .next t →
    t.wph = .idle ∧ exec (.fcSendWriteNext d) t = .next (returns 0x03 0x00 t)

/-- R131: a write batch whose host, run as log 16 says, stopped at the first error. Some byte k failed: every byte before it was
sent, echoed with the CRC it must have and read back equal; byte k was sent, and either its echo was not that CRC and nothing
was read back, or it was and the byte read back differs; nothing more is on the wire; WPH is IDLE; and no command but
FC_SEND_WRITE lets FC_SEND_WRITE_NEXT send again. -/
def Obligations.WriteBatchStopsAtTheFirstFailure : Prop :=
  ∀ a ds s t, ds ≠ [] → Running s → runHost (writeBatch a ds) s = .next t → Running t → t.err ≠ 0x00 →
    (∃ done d rest e last, ds = done ++ d :: rest ∧
      t.trace = s.trace ++ batchTrace s.params a 0 done ++ (batchSent a done.length d).map .write ++ [.read e] ++ last ∧
      ((t.err = 0x01 ∧ e ≠ batchEcho s.params a done.length d ∧ last = []) ∨
        (t.err = 0x02 ∧ e = batchEcho s.params a done.length d ∧ ∃ o, o ≠ d ∧ last = [.read o]))) ∧
    t.wph = .idle ∧
    ∀ is u d, (∀ i ∈ is, isSendWrite i = false) → execAll is t = .next u →
      exec (.fcSendWriteNext d) u = .next (returns 0x03 0x00 u)

/-- R132: an open write phase has a write address, at reset and after every step; WPH leaves IDLE only in FC_SEND_WRITE and
FC_SEND_WRITE_NEXT; so FC_SEND_WRITE_NEXT never faults. -/
def Obligations.OpenWritePhaseHasAWriteAddress : Prop :=
  (State.reset.wph ≠ .idle → State.reset.waddr ≠ none) ∧
  (∀ s t, (s.wph ≠ .idle → s.waddr ≠ none) → step s = .next t → t.wph ≠ .idle → t.waddr ≠ none) ∧
  (∀ i s t, exec i s = .next t → s.wph = .idle → t.wph ≠ .idle → sendsWrite i = true ∧ t.waddr ≠ none) ∧
  ∀ d s t, (s.wph ≠ .idle → s.waddr ≠ none) → exec (.fcSendWriteNext d) s = .next t → t.faulted = s.faulted

/-! Transceiver (43_transceiver.md). -/

/-- R160: TX_RESET records and returns the presence bit, ends a write sequence and clears DIRTY, as no other command does; the
reset may stall. -/
def Obligations.TxResetReportsPresence : Prop :=
  (∀ a d, decode (word 0x30 a d) = .ok .txReset) ∧
  (∀ s,
    let p := Config.oracle.presence s.trace
    let t := returns 0x00 (zext p) { s with trace := s.trace ++ [.reset p], pres := p, wph := .idle, dirty := false }
    exec .txReset s = .next (if stalls s .reset then stuck s else t) ∧
      (s.params.busAlwaysReturns = true → exec .txReset s = .next t)) ∧
  ∀ i s t, exec i s = .next t → s.dirty = true → t.dirty = false → i = .txReset

/-- R161: TX_WRITE_BIT writes D[0]; D[7:1] and A are ignored; it may stall. -/
def Obligations.TxWriteBitWritesBitZero : Prop :=
  (∀ a d, decode (word 0x31 a d) = .ok (.txWriteBit (d.getLsbD 0))) ∧
  ∀ s v,
    let t := returns 0x00 0x00 { s with trace := s.trace ++ [.writeBit v] }
    exec (.txWriteBit v) s = .next (if stalls s (.writeBit v) then stuck s else t) ∧
      (s.params.busAlwaysReturns = true → exec (.txWriteBit v) s = .next t)

/-- R162: TX_READ_BIT reads one bit and returns it; RXB is not written; it may stall. -/
def Obligations.TxReadBitReturnsTheBit : Prop :=
  (∀ a d, decode (word 0x32 a d) = .ok .txReadBit) ∧
  ∀ s,
    let v := Config.oracle.readBit s.trace
    let t := returns 0x00 (zext v) { s with trace := s.trace ++ [.readBit v] }
    exec .txReadBit s = .next (if stalls s .readBit then stuck s else t) ∧
      (s.params.busAlwaysReturns = true → exec .txReadBit s = .next t)

/-- R163: TX_WRITE_BYTE writes D; WPH is not changed and no CRC is checked; it may stall. -/
def Obligations.TxWriteByteWritesTheByte : Prop :=
  (∀ a d, decode (word 0x33 a d) = .ok (.txWriteByte d)) ∧
  ∀ s d,
    let t := returns 0x00 0x00 { s with trace := s.trace ++ [.write d] }
    exec (.txWriteByte d) s = .next (if stalls s (.write d) then stuck s else t) ∧
      (s.params.busAlwaysReturns = true → exec (.txWriteByte d) s = .next t)

/-- R164: TX_READ_BYTE reads one byte into RXB and returns it; no CRC is checked; it may stall. -/
def Obligations.TxReadByteReturnsTheByte : Prop :=
  (∀ a d, decode (word 0x34 a d) = .ok .txReadByte) ∧
  ∀ s,
    let b := Config.oracle.readByte s.trace
    let t := returns 0x00 b { s with trace := s.trace ++ [.read b], rxb := some b }
    exec .txReadByte s = .next (if stalls s .read then stuck s else t) ∧
      (s.params.busAlwaysReturns = true → exec .txReadByte s = .next t)

/-- R165: TX_WRITE_BYTES writes FB[0..len-1] in index order; E_OPERAND when len > 8; a fault, before any bus activity, when a
byte holds no value; each byte may stall; FLEN plays no part. -/
def Obligations.TxWriteBytesWritesTheBufferPrefix : Prop :=
  (∀ a d, decode (word 0x35 a d) = .ok (.txWriteBytes d)) ∧
  (∀ s (d : Byte), 8 < d.toNat → exec (.txWriteBytes d) s = .next (returns 0x04 0x00 s)) ∧
  (∀ s (d : Byte), d.toNat ≤ 8 → none ∈ s.fb.toList.take d.toNat → exec (.txWriteBytes d) s = .next (faults s)) ∧
  (∀ s (d : Byte) bs, d.toNat ≤ 8 → holds s d.toNat bs →
    exec (.txWriteBytes d) s = .next (sends bs s (returns 0x00 d))) ∧
  ∀ s (d : Byte) bs, d.toNat ≤ 8 → holds s d.toNat bs → s.params.busAlwaysReturns = true →
    exec (.txWriteBytes d) s = .next (returns 0x00 d { s with trace := s.trace ++ bs.map .write })

/-- R166: TX_SKIP writes the byte SKIP_ROM_CMD, 0xCC by default; it may stall. -/
def Obligations.TxSkipWritesTheSkipByte : Prop :=
  (∀ a d, decode (word 0x36 a d) = .ok .txSkip) ∧
  (∀ s,
    let t := returns 0x00 0x00 { s with trace := s.trace ++ [.write s.params.skipRom] }
    exec .txSkip s = .next (if stalls s (.write s.params.skipRom) then stuck s else t) ∧
      (s.params.busAlwaysReturns = true → exec .txSkip s = .next t)) ∧
  State.reset.params.skipRom = 0xCC ∧
  ∀ s, s.params.skipRom = 0xCC → exec .txSkip s = exec (.txWriteByte 0xCC) s

/-- R167: TX_SEARCH is one search step; an identifier found goes to FB whole with FLEN 8; not found is no error; the write
sequence ends either way; the search may stall. -/
def Obligations.TxSearchTakesOneSearchStep : Prop :=
  (∀ a d, decode (word 0x37 a d) = .ok .txSearch) ∧
  ∀ s,
    let r := Config.oracle.search s.trace
    let u : State := { s with trace := s.trace ++ [.search r], wph := .idle }
    let t := match r with
      | some ident => returns 0x00 0x01 { u with fb := ident.map some, flen := 8, found := true, sexh := false }
      | none => returns 0x00 0x00 { u with found := false, sexh := true }
    exec .txSearch s = .next (if stalls s .search then stuck s else t) ∧
      (s.params.busAlwaysReturns = true → exec .txSearch s = .next t)

/-- R168: TX_RESET_SEARCH marks T with SRESET and clears SEXH; it cannot stall. -/
def Obligations.TxResetSearchMarksTheTrace : Prop :=
  (∀ a d, decode (word 0x38 a d) = .ok .txResetSearch) ∧
  ∀ s, exec .txResetSearch s = .next (returns 0x00 0x00 { s with trace := s.trace ++ [.searchReset], sexh := false })

/-! Encoding (30_encoding.md). -/

/-- R84's example and 95_test_vectors.md section 2.1: a few words written out by hand. -/
def Obligations.WrittenOutWordsDecode : Prop :=
  decode 0x00000000 = .ok .nop ∧ decode 0x250005AB = .ok (.fcSendWrite 0x0005 0xAB) ∧
  decode 0x4000077E = .ok (.fbWr 7 0x7E) ∧ decode 0x31000001 = .ok (.txWriteBit true) ∧
  decode 0x11000001 = .ok (.crcUpdate 0x01) ∧ decode 0x99123456 = .error (.illegalOpcode 0x99)

/-- Decoding the word of an instruction gives the instruction, every operand at every value. -/
def Obligations.DecodeInvertsEncode : Prop := ∀ i, decode (encode i) = .ok i

/-- R75: a word is illegal exactly when its OP is in one of the ranges (231 values), and an illegal command finishes with
E_ILLEGAL and no other effect. -/
def Obligations.IllegalOpcodesFinishWithEIllegal : Prop :=
  (∀ w : CmdWord, (∃ e, decode w = .error e) ↔ illegalOp (w >>> 24).toNat = true) ∧
  ((List.range 256).filter illegalOp).length = 231 ∧
  ∀ s w, Running s → s.stream[s.pc]? = some w → illegalOp (w >>> 24).toNat = true →
    step s = .next (returns 0x05 0x00 s)

/-! The machine as a whole. -/

/-- A step of a running block whose stream (log 1) holds at pc a word that decodes to an instruction is exec of it, and nothing
else: exec itself moves pc. -/
def Obligations.StepRunsTheDecodedInstruction : Prop :=
  ∀ s w i, Running s → s.stream[s.pc]? = some w → decode w = .ok i → step s = exec i s

/-- 10_state.md R44, 60_exceptions.md R217 and 70_reset_and_hazards.md R251: a faulted or stalled block and an ended run have no
further step. The two stop names are the model's choice (logs 2, 8). -/
def Obligations.HaltedAndEndedRunsHaveNoStep : Prop :=
  (∀ s k p, s.faulted = some (k, p) → step s = .fault (.faulted k p)) ∧
  (∀ s, s.faulted = none → s.stalled = true → step s = .fault .busStalled) ∧
  ∀ s, Ended s → step s = .refused .noCommand

/-- R240: the state after block reset. -/
def Obligations.BlockResetLeavesTheStatedValues : Prop :=
  (∀ i : Fin 8, State.reset.fb[i] = none) ∧ State.reset.flen = 0 ∧ State.reset.crc = 0x00 ∧ State.reset.rxb = none ∧
  State.reset.exp = none ∧ State.reset.obs = none ∧ State.reset.waddr = none ∧ State.reset.wph = .idle ∧
  State.reset.err = 0x00 ∧ State.reset.pres = false ∧ State.reset.found = false ∧ State.reset.crcOk = false ∧
  State.reset.vfyOk = false ∧ State.reset.sexh = false ∧ State.reset.dirty = false ∧ State.reset.pc = 0 ∧
  State.reset.trace = [] ∧ State.reset.faulted = none

/-- A step's command finishes and advances pc by exactly 1, or faults or stalls, and pc stays (10_state.md R37). A command that
finishes returns one response (00_scope.md R16); the list of responses is the model's (log 9), and so are the marks that Running
and Halted read (logs 7, 8). -/
def Obligations.PcAdvancesByOneWhenACommandFinishes : Prop :=
  (∀ s t, step s = .next t →
    (t.pc = s.pc + 1 ∧ Running t ∧ ∃ r, t.resps = s.resps ++ [r]) ∨ (t.pc = s.pc ∧ Halted t ∧ t.resps = s.resps)) ∧
  State.reset.pc = 0

/-- 10_state.md R23: CRC is written only by CRC_INIT and CRC_UPDATE, and resets to 0x00, CRC8_INIT under DALLAS. -/
def Obligations.OnlyCrcCommandsWriteTheAccumulator : Prop :=
  (∀ i s t, exec i s = .next t → i ≠ .crcInit → (∀ d, i ≠ .crcUpdate d) → t.crc = s.crc) ∧
  (∀ s t w e, s.stream[s.pc]? = some w → decode w = .error e → step s = .next t → t.crc = s.crc) ∧
  State.reset.crc = 0x00 ∧ crc8Init Crc8Algo.dallas = 0x00

/-- The frame of every instruction, register by register: each register of 10_state.md R20 is left by every command that the
spec does not name as a writer of it, ERR and pc by a command that does not finish; the responses too, which are the model's
(log 9). The stall mark (log 8) is left off the bus. No command writes the OPEN parameters (00_scope.md R6) or the host's
stream (20_memory.md R66), which the model holds in State (logs 4, 1). That FC_SEND_WRITE_NEXT is among those that may write
FAULTED is log 10. -/
def Obligations.RegistersAreLeftByAllButTheirWriters : Prop :=
  ∀ i s t, exec i s = .next t →
    (writesFb i = false → t.fb = s.fb) ∧ (writesFlen i = false → t.flen = s.flen) ∧
    (i ≠ .crcInit → (∀ d, i ≠ .crcUpdate d) → t.crc = s.crc) ∧
    (readsByte i = false → t.rxb = s.rxb) ∧
    (crcChecker i = false → isReadback i = false → t.exp = s.exp ∧ t.obs = s.obs) ∧
    (sendsWrite i = false → t.waddr = s.waddr) ∧ (writesWph i = false → t.wph = s.wph) ∧
    (t.pc ≠ s.pc + 1 → t.err = s.err ∧ t.pc = s.pc ∧ t.resps = s.resps) ∧
    (i ≠ .txReset → t.pres = s.pres) ∧ (i ≠ .txSearch → t.found = s.found) ∧
    (crcChecker i = false → t.crcOk = s.crcOk) ∧ (isReadback i = false → t.vfyOk = s.vfyOk) ∧
    (i ≠ .txSearch → i ≠ .txResetSearch → t.sexh = s.sexh) ∧
    (crcChecker i = false → isReadback i = false → i ≠ .txReset → t.dirty = s.dirty) ∧
    (offBus i = true → t.trace = s.trace ∧ t.stalled = s.stalled) ∧ (mayFault i = false → t.faulted = s.faulted) ∧
    t.params = s.params ∧ t.stream = s.stream

/-- 10_state.md R36: DIRTY is set by every CRC or readback mismatch, cleared only by TX_RESET, and refuses nothing: with another
DIRTY every command but the STATUS read ends in the same state, DIRTY apart. -/
def Obligations.DirtyIsAReportOnly : Prop :=
  (∀ i s t, exec i s = .next t → t.pc = s.pc + 1 → (t.err = 0x01 ∨ t.err = 0x02) → t.dirty = true) ∧
  (∀ i s t, exec i s = .next t → s.dirty = true → t.dirty = false → i = .txReset) ∧
  (∀ i s t, exec i s = .next t → s.dirty = false → t.dirty = true → t.err = 0x01 ∨ t.err = 0x02) ∧
  (∀ i s t b, i ≠ .regRd 0x00 → exec i s = .next t → ∃ b', exec i { s with dirty := b } = .next { t with dirty := b' }) ∧
  State.reset.dirty = false

/-- 60_exceptions.md R211: the code a command finishes with is one of 0x00 to 0x04, each from the commands and for the causes
its row names, with what its row records; an illegal OP alone gives 0x05. -/
def Obligations.ErrorCodesHaveTheirCauses : Prop :=
  (∀ i s t, exec i s = .next t → t.pc = s.pc + 1 →
    t.err.toNat ≤ 4 ∧
    (t.err = 0x01 → crcChecker i = true ∧ t.exp ≠ t.obs ∧ t.crcOk = false ∧ t.dirty = true ∧ t.wph = .idle) ∧
    (t.err = 0x02 → isReadback i = true ∧ t.exp ≠ t.obs ∧ t.rxb = t.obs ∧ t.vfyOk = false ∧ t.dirty = true ∧
      t.wph = .idle) ∧
    (t.err = 0x03 ↔ outOfPhase i s.wph = true) ∧ (t.err = 0x04 ↔ operandOutOfRange i = true)) ∧
  ∀ s t w e, s.stream[s.pc]? = some w → decode w = .error e → step s = .next t → t.err = 0x05

/-- 60_exceptions.md R212, its first sentence: a command that finishes with E_SEQ, E_OPERAND or E_ILLEGAL changes ERR and pc and
nothing else of the block, and makes no bus transaction. -/
def Obligations.RefusedCommandsHaveNoOtherEffect : Prop :=
  (∀ i s t, exec i s = .next t → t.pc = s.pc + 1 → (t.err = 0x03 ∨ t.err = 0x04) →
    t = { s with err := t.err, pc := s.pc + 1, resps := s.resps ++ [t.err ++ (0x00 : Byte)] }) ∧
  ∀ s t w e, s.stream[s.pc]? = some w → decode w = .error e → step s = .next t →
    t = { s with err := 0x05, pc := s.pc + 1, resps := s.resps ++ [0x0500] }

/-- 60_exceptions.md R216: from a state in which an open write phase has a write address (42_frame_codec.md R132), a step records
the fault exactly when its command would read a register holding no value; then FAULTED is all it writes, and no step
follows, nor is the run ended. -/
def Obligations.UnwrittenFaultIsPrecise : Prop :=
  ∀ s t w i, RegistersOk s → step s = .next t → s.stream[s.pc]? = some w → decode w = .ok i →
    (t.faulted ≠ none ↔ readsNoValue i s) ∧
    (t.faulted ≠ none →
      t = { s with faulted := some (.unwritten, s.pc) } ∧ step t = .fault (.faulted .unwritten s.pc) ∧
        ¬ Ended t)

/-- 00_scope.md R13: a transaction that stalls appends no event and the command does no more, while what the command did before
stays. First for every command: a stall needs BUS_ALWAYS_RETURNS false, finishes nothing and ends the steps (60_exceptions.md
R217). Then, for every oracle, the state at a stall of each of the four transactions of FC_SEND_READ. -/
def Obligations.StallKeepsWhatTheCommandDidBefore : Prop :=
  (∀ i s t, Running s → exec i s = .next t →
    t.stalled = false ∨
      (s.params.busAlwaysReturns = false ∧ t.pc = s.pc ∧ t.resps = s.resps ∧ t.err = s.err ∧ s.trace <+: t.trace ∧
        step t = .fault .busStalled ∧ ¬ Ended t)) ∧
  ∀ (o : Oracle) s a k, k < 4 → s.params.busAlwaysReturns = false →
    let frame : List Byte := [0xF0, lo a, hi a]
    let op (j : Nat) : BusOp := match frame[j]? with | some b => .write b | none => .read
    let before (j : Nat) : Trace := s.trace ++ (frame.take j).map .write
    (∀ j, j < k → o.stalls (before j) (op j) = false) → o.stalls (before k) (op k) = true →
    sendRead o a s = { withReadFrame a s with wph := .idle, trace := before k, stalled := true }

/-- 10_state.md R38 and 20_memory.md R63: T only grows, at its end. -/
def Obligations.TraceOnlyGrows : Prop := ∀ s t, step s = .next t → s.trace <+: t.trace

/-- 20_memory.md R66 and 00_scope.md R6: no step changes the host's stream or a parameter; that State holds them is the model's
choice (logs 1, 4). -/
def Obligations.StepLeavesStreamAndParameters : Prop :=
  ∀ s t, step s = .next t → t.stream = s.stream ∧ t.params = s.params

/-- Every command answers a next state from every state. That no error code, DIRTY or bus answer stops the block is
60_exceptions.md R213 and 20_memory.md R55; a command refused with E_SEQ or E_OPERAND, a fault UNWRITTEN just recorded and a
bus stall are next states here too, and so is a command in a state that has no further step: that is how the model records
the model-only outcomes (logs 7 and 8); `step` stops on them. -/
def Obligations.EveryCommandAnswersANextState : Prop := ∀ i s, ∃ t, exec i s = .next t

/-- RegistersOk at reset (the list of responses in it is the model's, log 9). -/
def Obligations.RegistersOkAfterReset : Prop := RegistersOk State.reset

/-- 42_frame_codec.md R132, 10_state.md R26 and R29: every step from a state that meets RegistersOk ends in one. Its clause
on the list of responses is about the model's own field (log 9). -/
def Obligations.StepKeepsRegistersOk : Prop := ∀ s t, RegistersOk s → step s = .next t → RegistersOk t

/-- AgreesWithTrace at reset. -/
def Obligations.RegistersAgreeWithTraceAfterReset : Prop := AgreesWithTrace State.reset

/-- 10_state.md R24, R32, R33: RXB is always the last byte the trace shows read, PRES the last presence answer, FOUND the last
search answer, and SEXH whether the last search, with no search reset after it, found nothing. -/
def Obligations.StepKeepsRegistersInAgreementWithTrace : Prop :=
  ∀ s t, AgreesWithTrace s → step s = .next t → AgreesWithTrace t

/-- 30_encoding.md R85, CRC_OF: from a running block the host sequence, run as log 16 says, leaves crc8 of its bytes in CRC. -/
def Obligations.CrcOfSequenceComputesTheCrc : Prop :=
  ∀ s bs, Running s → ∃ t, runHost (crcOf bs) s = .next t ∧ t.crc = crc8 s.params.crc8 bs ∧ t.trace = s.trace ∧
    t.pc = s.pc + bs.length + 1

/-- 43_transceiver.md R170 and 20_memory.md R54: the wire slots of each bus event, a byte bit 0 first, and of a whole trace. The
spec marks the refinement as general knowledge outside its source; what a search carries in its window and its triplets
is in no source and left free, and its command byte is from a note of 93_implementation_defined.md section 2 (PRESUMED: log 14). -/
def Obligations.WireSlotsRefineBusEvents : Prop :=
  (∀ t b, wireSlots t (.write b) = [.writeSlot (b.getLsbD 0), .writeSlot (b.getLsbD 1), .writeSlot (b.getLsbD 2),
    .writeSlot (b.getLsbD 3), .writeSlot (b.getLsbD 4), .writeSlot (b.getLsbD 5), .writeSlot (b.getLsbD 6),
    .writeSlot (b.getLsbD 7)]) ∧
  (∀ t b, wireSlots t (.read b) = [.readSlot (b.getLsbD 0), .readSlot (b.getLsbD 1), .readSlot (b.getLsbD 2),
    .readSlot (b.getLsbD 3), .readSlot (b.getLsbD 4), .readSlot (b.getLsbD 5), .readSlot (b.getLsbD 6),
    .readSlot (b.getLsbD 7)]) ∧
  (∀ t p, wireSlots t (.reset p) = [.resetPulse, .presenceWindow p]) ∧
  (∀ t v, wireSlots t (.writeBit v) = [.writeSlot v] ∧ wireSlots t (.readBit v) = [.readSlot v]) ∧
  (∀ t, wireSlots t .searchReset = []) ∧
  (∀ t r, ∃ p triplets, wireSlots t (.search r) = wireSlots t (.reset p) ++ wireSlots t (.write 0xF0) ++ triplets ∧
    triplets.length = 64 ∧ ∀ x ∈ triplets, ∃ a b c, x = .triplet a b c) ∧
  ∀ t es e, traceSlots t (es ++ [e]) = traceSlots t es ++ wireSlots (t ++ es) e
end

