-- ==== Sys2Proof/Laws/State.lean ====
section
/-! SUPPORT. One lemma per field per update of State, true by rfl: what each shared operation writes and leaves. -/

namespace Sys2Proof.Machine

/-! finish -/

@[simp] theorem finish_fb (e : ErrCode) (v : Byte) (s : State) : (finish e v s).fb = s.fb := rfl
@[simp] theorem finish_flen (e : ErrCode) (v : Byte) (s : State) : (finish e v s).flen = s.flen := rfl
@[simp] theorem finish_crc (e : ErrCode) (v : Byte) (s : State) : (finish e v s).crc = s.crc := rfl
@[simp] theorem finish_rxb (e : ErrCode) (v : Byte) (s : State) : (finish e v s).rxb = s.rxb := rfl
@[simp] theorem finish_exp (e : ErrCode) (v : Byte) (s : State) : (finish e v s).exp = s.exp := rfl
@[simp] theorem finish_obs (e : ErrCode) (v : Byte) (s : State) : (finish e v s).obs = s.obs := rfl
@[simp] theorem finish_waddr (e : ErrCode) (v : Byte) (s : State) : (finish e v s).waddr = s.waddr := rfl
@[simp] theorem finish_wph (e : ErrCode) (v : Byte) (s : State) : (finish e v s).wph = s.wph := rfl
@[simp] theorem finish_err (e : ErrCode) (v : Byte) (s : State) : (finish e v s).err = errByte e := rfl
@[simp] theorem finish_pres (e : ErrCode) (v : Byte) (s : State) : (finish e v s).pres = s.pres := rfl
@[simp] theorem finish_found (e : ErrCode) (v : Byte) (s : State) : (finish e v s).found = s.found := rfl
@[simp] theorem finish_crcOk (e : ErrCode) (v : Byte) (s : State) : (finish e v s).crcOk = s.crcOk := rfl
@[simp] theorem finish_vfyOk (e : ErrCode) (v : Byte) (s : State) : (finish e v s).vfyOk = s.vfyOk := rfl
@[simp] theorem finish_sexh (e : ErrCode) (v : Byte) (s : State) : (finish e v s).sexh = s.sexh := rfl
@[simp] theorem finish_dirty (e : ErrCode) (v : Byte) (s : State) : (finish e v s).dirty = s.dirty := rfl
@[simp] theorem finish_pc (e : ErrCode) (v : Byte) (s : State) : (finish e v s).pc = s.pc + 1 := rfl
@[simp] theorem finish_trace (e : ErrCode) (v : Byte) (s : State) : (finish e v s).trace = s.trace := rfl
@[simp] theorem finish_faulted (e : ErrCode) (v : Byte) (s : State) : (finish e v s).faulted = s.faulted := rfl
@[simp] theorem finish_stalled (e : ErrCode) (v : Byte) (s : State) : (finish e v s).stalled = s.stalled := rfl
@[simp] theorem finish_resps (e : ErrCode) (v : Byte) (s : State) : (finish e v s).resps = s.resps ++ [response e v] := rfl
@[simp] theorem finish_stream (e : ErrCode) (v : Byte) (s : State) : (finish e v s).stream = s.stream := rfl
@[simp] theorem finish_params (e : ErrCode) (v : Byte) (s : State) : (finish e v s).params = s.params := rfl

/-! raiseUnwritten -/

@[simp] theorem raiseUnwritten_fb (s : State) : (raiseUnwritten s).fb = s.fb := rfl
@[simp] theorem raiseUnwritten_flen (s : State) : (raiseUnwritten s).flen = s.flen := rfl
@[simp] theorem raiseUnwritten_crc (s : State) : (raiseUnwritten s).crc = s.crc := rfl
@[simp] theorem raiseUnwritten_rxb (s : State) : (raiseUnwritten s).rxb = s.rxb := rfl
@[simp] theorem raiseUnwritten_exp (s : State) : (raiseUnwritten s).exp = s.exp := rfl
@[simp] theorem raiseUnwritten_obs (s : State) : (raiseUnwritten s).obs = s.obs := rfl
@[simp] theorem raiseUnwritten_waddr (s : State) : (raiseUnwritten s).waddr = s.waddr := rfl
@[simp] theorem raiseUnwritten_wph (s : State) : (raiseUnwritten s).wph = s.wph := rfl
@[simp] theorem raiseUnwritten_err (s : State) : (raiseUnwritten s).err = s.err := rfl
@[simp] theorem raiseUnwritten_pres (s : State) : (raiseUnwritten s).pres = s.pres := rfl
@[simp] theorem raiseUnwritten_found (s : State) : (raiseUnwritten s).found = s.found := rfl
@[simp] theorem raiseUnwritten_crcOk (s : State) : (raiseUnwritten s).crcOk = s.crcOk := rfl
@[simp] theorem raiseUnwritten_vfyOk (s : State) : (raiseUnwritten s).vfyOk = s.vfyOk := rfl
@[simp] theorem raiseUnwritten_sexh (s : State) : (raiseUnwritten s).sexh = s.sexh := rfl
@[simp] theorem raiseUnwritten_dirty (s : State) : (raiseUnwritten s).dirty = s.dirty := rfl
@[simp] theorem raiseUnwritten_pc (s : State) : (raiseUnwritten s).pc = s.pc := rfl
@[simp] theorem raiseUnwritten_trace (s : State) : (raiseUnwritten s).trace = s.trace := rfl
@[simp] theorem raiseUnwritten_faulted (s : State) : (raiseUnwritten s).faulted = some (.unwritten, s.pc) := rfl
@[simp] theorem raiseUnwritten_stalled (s : State) : (raiseUnwritten s).stalled = s.stalled := rfl
@[simp] theorem raiseUnwritten_resps (s : State) : (raiseUnwritten s).resps = s.resps := rfl
@[simp] theorem raiseUnwritten_stream (s : State) : (raiseUnwritten s).stream = s.stream := rfl
@[simp] theorem raiseUnwritten_params (s : State) : (raiseUnwritten s).params = s.params := rfl

/-! markStalled -/

@[simp] theorem markStalled_fb (s : State) : (markStalled s).fb = s.fb := rfl
@[simp] theorem markStalled_flen (s : State) : (markStalled s).flen = s.flen := rfl
@[simp] theorem markStalled_crc (s : State) : (markStalled s).crc = s.crc := rfl
@[simp] theorem markStalled_rxb (s : State) : (markStalled s).rxb = s.rxb := rfl
@[simp] theorem markStalled_exp (s : State) : (markStalled s).exp = s.exp := rfl
@[simp] theorem markStalled_obs (s : State) : (markStalled s).obs = s.obs := rfl
@[simp] theorem markStalled_waddr (s : State) : (markStalled s).waddr = s.waddr := rfl
@[simp] theorem markStalled_wph (s : State) : (markStalled s).wph = s.wph := rfl
@[simp] theorem markStalled_err (s : State) : (markStalled s).err = s.err := rfl
@[simp] theorem markStalled_pres (s : State) : (markStalled s).pres = s.pres := rfl
@[simp] theorem markStalled_found (s : State) : (markStalled s).found = s.found := rfl
@[simp] theorem markStalled_crcOk (s : State) : (markStalled s).crcOk = s.crcOk := rfl
@[simp] theorem markStalled_vfyOk (s : State) : (markStalled s).vfyOk = s.vfyOk := rfl
@[simp] theorem markStalled_sexh (s : State) : (markStalled s).sexh = s.sexh := rfl
@[simp] theorem markStalled_dirty (s : State) : (markStalled s).dirty = s.dirty := rfl
@[simp] theorem markStalled_pc (s : State) : (markStalled s).pc = s.pc := rfl
@[simp] theorem markStalled_trace (s : State) : (markStalled s).trace = s.trace := rfl
@[simp] theorem markStalled_faulted (s : State) : (markStalled s).faulted = s.faulted := rfl
@[simp] theorem markStalled_stalled (s : State) : (markStalled s).stalled = true := rfl
@[simp] theorem markStalled_resps (s : State) : (markStalled s).resps = s.resps := rfl
@[simp] theorem markStalled_stream (s : State) : (markStalled s).stream = s.stream := rfl
@[simp] theorem markStalled_params (s : State) : (markStalled s).params = s.params := rfl

/-! logEvent -/

@[simp] theorem logEvent_fb (e : BusEvent) (s : State) : (logEvent e s).fb = s.fb := rfl
@[simp] theorem logEvent_flen (e : BusEvent) (s : State) : (logEvent e s).flen = s.flen := rfl
@[simp] theorem logEvent_crc (e : BusEvent) (s : State) : (logEvent e s).crc = s.crc := rfl
@[simp] theorem logEvent_rxb (e : BusEvent) (s : State) : (logEvent e s).rxb = s.rxb := rfl
@[simp] theorem logEvent_exp (e : BusEvent) (s : State) : (logEvent e s).exp = s.exp := rfl
@[simp] theorem logEvent_obs (e : BusEvent) (s : State) : (logEvent e s).obs = s.obs := rfl
@[simp] theorem logEvent_waddr (e : BusEvent) (s : State) : (logEvent e s).waddr = s.waddr := rfl
@[simp] theorem logEvent_wph (e : BusEvent) (s : State) : (logEvent e s).wph = s.wph := rfl
@[simp] theorem logEvent_err (e : BusEvent) (s : State) : (logEvent e s).err = s.err := rfl
@[simp] theorem logEvent_pres (e : BusEvent) (s : State) : (logEvent e s).pres = s.pres := rfl
@[simp] theorem logEvent_found (e : BusEvent) (s : State) : (logEvent e s).found = s.found := rfl
@[simp] theorem logEvent_crcOk (e : BusEvent) (s : State) : (logEvent e s).crcOk = s.crcOk := rfl
@[simp] theorem logEvent_vfyOk (e : BusEvent) (s : State) : (logEvent e s).vfyOk = s.vfyOk := rfl
@[simp] theorem logEvent_sexh (e : BusEvent) (s : State) : (logEvent e s).sexh = s.sexh := rfl
@[simp] theorem logEvent_dirty (e : BusEvent) (s : State) : (logEvent e s).dirty = s.dirty := rfl
@[simp] theorem logEvent_pc (e : BusEvent) (s : State) : (logEvent e s).pc = s.pc := rfl
@[simp] theorem logEvent_trace (e : BusEvent) (s : State) : (logEvent e s).trace = s.trace ++ [e] := rfl
@[simp] theorem logEvent_faulted (e : BusEvent) (s : State) : (logEvent e s).faulted = s.faulted := rfl
@[simp] theorem logEvent_stalled (e : BusEvent) (s : State) : (logEvent e s).stalled = s.stalled := rfl
@[simp] theorem logEvent_resps (e : BusEvent) (s : State) : (logEvent e s).resps = s.resps := rfl
@[simp] theorem logEvent_stream (e : BusEvent) (s : State) : (logEvent e s).stream = s.stream := rfl
@[simp] theorem logEvent_params (e : BusEvent) (s : State) : (logEvent e s).params = s.params := rfl

/-! putReadFrame -/

@[simp] theorem putReadFrame_fb (a : Word16) (s : State) : (putReadFrame a s).fb = ((s.fb.set 0 (some Config.opRead)).set 1 (some (addrLo a))).set 2 (some (addrHi a)) := rfl
@[simp] theorem putReadFrame_flen (a : Word16) (s : State) : (putReadFrame a s).flen = 3 := rfl
@[simp] theorem putReadFrame_crc (a : Word16) (s : State) : (putReadFrame a s).crc = s.crc := rfl
@[simp] theorem putReadFrame_rxb (a : Word16) (s : State) : (putReadFrame a s).rxb = s.rxb := rfl
@[simp] theorem putReadFrame_exp (a : Word16) (s : State) : (putReadFrame a s).exp = s.exp := rfl
@[simp] theorem putReadFrame_obs (a : Word16) (s : State) : (putReadFrame a s).obs = s.obs := rfl
@[simp] theorem putReadFrame_waddr (a : Word16) (s : State) : (putReadFrame a s).waddr = s.waddr := rfl
@[simp] theorem putReadFrame_wph (a : Word16) (s : State) : (putReadFrame a s).wph = s.wph := rfl
@[simp] theorem putReadFrame_err (a : Word16) (s : State) : (putReadFrame a s).err = s.err := rfl
@[simp] theorem putReadFrame_pres (a : Word16) (s : State) : (putReadFrame a s).pres = s.pres := rfl
@[simp] theorem putReadFrame_found (a : Word16) (s : State) : (putReadFrame a s).found = s.found := rfl
@[simp] theorem putReadFrame_crcOk (a : Word16) (s : State) : (putReadFrame a s).crcOk = s.crcOk := rfl
@[simp] theorem putReadFrame_vfyOk (a : Word16) (s : State) : (putReadFrame a s).vfyOk = s.vfyOk := rfl
@[simp] theorem putReadFrame_sexh (a : Word16) (s : State) : (putReadFrame a s).sexh = s.sexh := rfl
@[simp] theorem putReadFrame_dirty (a : Word16) (s : State) : (putReadFrame a s).dirty = s.dirty := rfl
@[simp] theorem putReadFrame_pc (a : Word16) (s : State) : (putReadFrame a s).pc = s.pc := rfl
@[simp] theorem putReadFrame_trace (a : Word16) (s : State) : (putReadFrame a s).trace = s.trace := rfl
@[simp] theorem putReadFrame_faulted (a : Word16) (s : State) : (putReadFrame a s).faulted = s.faulted := rfl
@[simp] theorem putReadFrame_stalled (a : Word16) (s : State) : (putReadFrame a s).stalled = s.stalled := rfl
@[simp] theorem putReadFrame_resps (a : Word16) (s : State) : (putReadFrame a s).resps = s.resps := rfl
@[simp] theorem putReadFrame_stream (a : Word16) (s : State) : (putReadFrame a s).stream = s.stream := rfl
@[simp] theorem putReadFrame_params (a : Word16) (s : State) : (putReadFrame a s).params = s.params := rfl

/-! putWriteFrame -/

@[simp] theorem putWriteFrame_fb (a : Word16) (d : Byte) (s : State) : (putWriteFrame a d s).fb = (((s.fb.set 0 (some Config.opWrite)).set 1 (some (addrLo a))).set 2 (some (addrHi a))).set 3 (some d) := rfl
@[simp] theorem putWriteFrame_flen (a : Word16) (d : Byte) (s : State) : (putWriteFrame a d s).flen = 4 := rfl
@[simp] theorem putWriteFrame_crc (a : Word16) (d : Byte) (s : State) : (putWriteFrame a d s).crc = s.crc := rfl
@[simp] theorem putWriteFrame_rxb (a : Word16) (d : Byte) (s : State) : (putWriteFrame a d s).rxb = s.rxb := rfl
@[simp] theorem putWriteFrame_exp (a : Word16) (d : Byte) (s : State) : (putWriteFrame a d s).exp = s.exp := rfl
@[simp] theorem putWriteFrame_obs (a : Word16) (d : Byte) (s : State) : (putWriteFrame a d s).obs = s.obs := rfl
@[simp] theorem putWriteFrame_waddr (a : Word16) (d : Byte) (s : State) : (putWriteFrame a d s).waddr = s.waddr := rfl
@[simp] theorem putWriteFrame_wph (a : Word16) (d : Byte) (s : State) : (putWriteFrame a d s).wph = s.wph := rfl
@[simp] theorem putWriteFrame_err (a : Word16) (d : Byte) (s : State) : (putWriteFrame a d s).err = s.err := rfl
@[simp] theorem putWriteFrame_pres (a : Word16) (d : Byte) (s : State) : (putWriteFrame a d s).pres = s.pres := rfl
@[simp] theorem putWriteFrame_found (a : Word16) (d : Byte) (s : State) : (putWriteFrame a d s).found = s.found := rfl
@[simp] theorem putWriteFrame_crcOk (a : Word16) (d : Byte) (s : State) : (putWriteFrame a d s).crcOk = s.crcOk := rfl
@[simp] theorem putWriteFrame_vfyOk (a : Word16) (d : Byte) (s : State) : (putWriteFrame a d s).vfyOk = s.vfyOk := rfl
@[simp] theorem putWriteFrame_sexh (a : Word16) (d : Byte) (s : State) : (putWriteFrame a d s).sexh = s.sexh := rfl
@[simp] theorem putWriteFrame_dirty (a : Word16) (d : Byte) (s : State) : (putWriteFrame a d s).dirty = s.dirty := rfl
@[simp] theorem putWriteFrame_pc (a : Word16) (d : Byte) (s : State) : (putWriteFrame a d s).pc = s.pc := rfl
@[simp] theorem putWriteFrame_trace (a : Word16) (d : Byte) (s : State) : (putWriteFrame a d s).trace = s.trace := rfl
@[simp] theorem putWriteFrame_faulted (a : Word16) (d : Byte) (s : State) : (putWriteFrame a d s).faulted = s.faulted := rfl
@[simp] theorem putWriteFrame_stalled (a : Word16) (d : Byte) (s : State) : (putWriteFrame a d s).stalled = s.stalled := rfl
@[simp] theorem putWriteFrame_resps (a : Word16) (d : Byte) (s : State) : (putWriteFrame a d s).resps = s.resps := rfl
@[simp] theorem putWriteFrame_stream (a : Word16) (d : Byte) (s : State) : (putWriteFrame a d s).stream = s.stream := rfl
@[simp] theorem putWriteFrame_params (a : Word16) (d : Byte) (s : State) : (putWriteFrame a d s).params = s.params := rfl

/-! withFetchWord -/

@[simp] theorem withFetchWord_fb (s : State) (n w : Nat) : (s.withFetchWord n w).fb = s.fb := rfl
@[simp] theorem withFetchWord_flen (s : State) (n w : Nat) : (s.withFetchWord n w).flen = s.flen := rfl
@[simp] theorem withFetchWord_crc (s : State) (n w : Nat) : (s.withFetchWord n w).crc = s.crc := rfl
@[simp] theorem withFetchWord_rxb (s : State) (n w : Nat) : (s.withFetchWord n w).rxb = s.rxb := rfl
@[simp] theorem withFetchWord_exp (s : State) (n w : Nat) : (s.withFetchWord n w).exp = s.exp := rfl
@[simp] theorem withFetchWord_obs (s : State) (n w : Nat) : (s.withFetchWord n w).obs = s.obs := rfl
@[simp] theorem withFetchWord_waddr (s : State) (n w : Nat) : (s.withFetchWord n w).waddr = s.waddr := rfl
@[simp] theorem withFetchWord_wph (s : State) (n w : Nat) : (s.withFetchWord n w).wph = s.wph := rfl
@[simp] theorem withFetchWord_err (s : State) (n w : Nat) : (s.withFetchWord n w).err = s.err := rfl
@[simp] theorem withFetchWord_pres (s : State) (n w : Nat) : (s.withFetchWord n w).pres = s.pres := rfl
@[simp] theorem withFetchWord_found (s : State) (n w : Nat) : (s.withFetchWord n w).found = s.found := rfl
@[simp] theorem withFetchWord_crcOk (s : State) (n w : Nat) : (s.withFetchWord n w).crcOk = s.crcOk := rfl
@[simp] theorem withFetchWord_vfyOk (s : State) (n w : Nat) : (s.withFetchWord n w).vfyOk = s.vfyOk := rfl
@[simp] theorem withFetchWord_sexh (s : State) (n w : Nat) : (s.withFetchWord n w).sexh = s.sexh := rfl
@[simp] theorem withFetchWord_dirty (s : State) (n w : Nat) : (s.withFetchWord n w).dirty = s.dirty := rfl
@[simp] theorem withFetchWord_pc (s : State) (n w : Nat) : (s.withFetchWord n w).pc = s.pc := rfl
@[simp] theorem withFetchWord_trace (s : State) (n w : Nat) : (s.withFetchWord n w).trace = s.trace := rfl
@[simp] theorem withFetchWord_faulted (s : State) (n w : Nat) : (s.withFetchWord n w).faulted = s.faulted := rfl
@[simp] theorem withFetchWord_stalled (s : State) (n w : Nat) : (s.withFetchWord n w).stalled = s.stalled := rfl
@[simp] theorem withFetchWord_resps (s : State) (n w : Nat) : (s.withFetchWord n w).resps = s.resps := rfl
@[simp] theorem withFetchWord_stream (s : State) (n w : Nat) : (s.withFetchWord n w).stream = placeWord s.stream s.pc (BitVec.ofNat 32 (w % 2 ^ n)) := rfl
@[simp] theorem withFetchWord_params (s : State) (n w : Nat) : (s.withFetchWord n w).params = s.params := rfl

end Sys2Proof.Machine
end

