-- ==== Sys2Proof/Laws/Ops.lean ====
section
/-! SUPPORT. One spec lemma per shared operation: everything it can do, and what it does when no transaction stalls. The
induction forms (`_ind`) prove a property of the state a command ends in from the property of each way it can end. -/

namespace Sys2Proof.Machine

variable {α : Type} {P : State → Prop} {o : Oracle} {s : State}

/-! Registers that may hold no value (10_state.md R30). -/

@[simp] theorem readVal_some (v : α) (s : State) (k : α → State) : readVal (some v) s k = k v := rfl

@[simp] theorem readVal_none (s : State) (k : α → State) : readVal none s k = raiseUnwritten s := rfl

theorem readVal_ind {r : Option α} {k : α → State} (hf : r = none → P (raiseUnwritten s))
    (hk : ∀ v, r = some v → P (k v)) : P (readVal r s k) := by
  cases r with
  | none => exact hf rfl
  | some v => exact hk v rfl

@[simp] theorem allWritten_map_some (bs : List Byte) : allWritten (bs.map some) = some bs := by
  induction bs with
  | nil => rfl
  | cons b bs ih => simp [allWritten, ih]

theorem allWritten_eq_some_iff (cs : List (Option Byte)) (bs : List Byte) :
    allWritten cs = some bs ↔ cs = bs.map some := by
  constructor
  · induction cs generalizing bs with
    | nil => intro h; cases h; rfl
    | cons c cs ih =>
      cases c with
      | none => intro h; cases h
      | some b =>
        intro h
        obtain ⟨bs', hbs, rfl⟩ := Option.map_eq_some_iff.mp h
        simp [ih bs' hbs]
  · rintro rfl
    exact allWritten_map_some bs

theorem allWritten_eq_none_iff (cs : List (Option Byte)) : allWritten cs = none ↔ none ∈ cs := by
  induction cs with
  | nil => simp [allWritten]
  | cons c cs ih => cases c <;> simp [allWritten, ih]

/-- FB[0..n-1] is a list of bytes exactly when each of its cells holds one. -/
theorem fbPrefix_eq_some_iff (n : Nat) (s : State) (bs : List Byte) :
    fbPrefix n s = some bs ↔ s.fb.toList.take n = bs.map some := allWritten_eq_some_iff _ _

theorem fbPrefix_eq_none_iff (n : Nat) (s : State) : fbPrefix n s = none ↔ none ∈ s.fb.toList.take n :=
  allWritten_eq_none_iff _

/-! The frames (30_encoding.md R78, R79). -/

theorem putReadFrame_fb_cells (a : Word16) (s : State) :
    (putReadFrame a s).fb =
      #v[some 0xF0, some (addrLo a), some (addrHi a), s.fb[3], s.fb[4], s.fb[5], s.fb[6], s.fb[7]] := by
  ext1 i hi
  obtain rfl | rfl | rfl | rfl | rfl | rfl | rfl | rfl :
    i = 0 ∨ i = 1 ∨ i = 2 ∨ i = 3 ∨ i = 4 ∨ i = 5 ∨ i = 6 ∨ i = 7 := by omega
  all_goals simp [putReadFrame, Config.opRead]

theorem putWriteFrame_fb_cells (a : Word16) (d : Byte) (s : State) :
    (putWriteFrame a d s).fb =
      #v[some 0x0F, some (addrLo a), some (addrHi a), some d, s.fb[4], s.fb[5], s.fb[6], s.fb[7]] := by
  ext1 i hi
  obtain rfl | rfl | rfl | rfl | rfl | rfl | rfl | rfl :
    i = 0 ∨ i = 1 ∨ i = 2 ∨ i = 3 ∨ i = 4 ∨ i = 5 ∨ i = 6 ∨ i = 7 := by omega
  all_goals simp [putWriteFrame, Config.opWrite]

/-! The start of a run (70_reset_and_hazards.md R240, R251). -/

theorem boot_crc (p : Params) (cmds : List CmdWord) : (State.boot p cmds).crc = crc8Init p.crc8 := rfl

theorem boot_default (cmds : List CmdWord) : State.boot Params.default cmds = { State.reset with stream := cmds } := rfl

/-! Bus transactions (00_scope.md R10-R13, 20_memory.md R57). -/

@[simp] theorem busStalls_of_returns (o : Oracle) (op : BusOp) (h : s.params.busAlwaysReturns = true) :
    busStalls o op s = false := by simp [busStalls, h]

theorem busDo_ind {op : BusOp} {k : State → State} (hs : busStalls o op s = true → P (markStalled s)) (hk : P (k s)) :
    P (busDo o op s k) := by
  unfold busDo
  split
  · exact hs ‹_›
  · exact hk

theorem not_returns_of_busStalls {op : BusOp} (h : busStalls o op s = true) : s.params.busAlwaysReturns = false := by
  simp only [busStalls, Bool.and_eq_true, Bool.not_eq_true'] at h
  exact h.1

theorem busDo_of_returns {op : BusOp} (h : s.params.busAlwaysReturns = true) (k : State → State) :
    busDo o op s k = k s := by simp [busDo, h]

theorem busWrite_of_returns (b : Byte) (h : s.params.busAlwaysReturns = true) (k : State → State) :
    busWrite o b s k = k (logEvent (.write b) s) := busDo_of_returns h _

theorem busRead_of_returns (h : s.params.busAlwaysReturns = true) (k : Byte → State → State) :
    busRead o s k =
      k (o.readByte s.trace)
        { logEvent (.read (o.readByte s.trace)) s with rxb := some (o.readByte s.trace) } := busDo_of_returns h _

theorem busReset_of_returns (h : s.params.busAlwaysReturns = true) (k : Bool → State → State) :
    busReset o s k = k (o.presence s.trace) (logEvent (.reset (o.presence s.trace)) s) := busDo_of_returns h _

theorem busWriteBit_of_returns (v : Bool) (h : s.params.busAlwaysReturns = true) (k : State → State) :
    busWriteBit o v s k = k (logEvent (.writeBit v) s) := busDo_of_returns h _

theorem busReadBit_of_returns (h : s.params.busAlwaysReturns = true) (k : Bool → State → State) :
    busReadBit o s k = k (o.readBit s.trace) (logEvent (.readBit (o.readBit s.trace)) s) := busDo_of_returns h _

theorem busSearch_of_returns (h : s.params.busAlwaysReturns = true) (k : Option Ident → State → State) :
    busSearch o s k = k (o.search s.trace) (logEvent (.search (o.search s.trace)) s) := busDo_of_returns h _

/-- The state after a list of bytes has been written. -/
theorem busWrites_of_returns (bs : List Byte) (h : s.params.busAlwaysReturns = true) (k : State → State) :
    busWrites o bs s k = k { s with trace := s.trace ++ bs.map .write } := by
  induction bs generalizing s with
  | nil => simp [busWrites]
  | cons b bs ih =>
    rw [busWrites, busWrite_of_returns b h, ih (by simpa using h)]
    simp [logEvent]

theorem busWrite_ind {b : Byte} {k : State → State} (hs : s.params.busAlwaysReturns = false → P (markStalled s)) (hk : P (k (logEvent (.write b) s))) :
    P (busWrite o b s k) := busDo_ind (fun h => hs (not_returns_of_busStalls h)) hk

theorem busRead_ind {k : Byte → State → State} (hs : s.params.busAlwaysReturns = false → P (markStalled s))
    (hk : ∀ b, P (k b { logEvent (.read b) s with rxb := some b })) : P (busRead o s k) := busDo_ind (fun h => hs (not_returns_of_busStalls h)) (hk _)

theorem busReset_ind {k : Bool → State → State} (hs : s.params.busAlwaysReturns = false → P (markStalled s)) (hk : ∀ p, P (k p (logEvent (.reset p) s))) :
    P (busReset o s k) := busDo_ind (fun h => hs (not_returns_of_busStalls h)) (hk _)

theorem busWriteBit_ind {v : Bool} {k : State → State} (hs : s.params.busAlwaysReturns = false → P (markStalled s))
    (hk : P (k (logEvent (.writeBit v) s))) : P (busWriteBit o v s k) := busDo_ind (fun h => hs (not_returns_of_busStalls h)) hk

theorem busReadBit_ind {k : Bool → State → State} (hs : s.params.busAlwaysReturns = false → P (markStalled s))
    (hk : ∀ v, P (k v (logEvent (.readBit v) s))) : P (busReadBit o s k) := busDo_ind (fun h => hs (not_returns_of_busStalls h)) (hk _)

theorem busSearch_ind {k : Option Ident → State → State} (hs : s.params.busAlwaysReturns = false → P (markStalled s))
    (hk : ∀ r, P (k r (logEvent (.search r) s))) : P (busSearch o s k) := busDo_ind (fun h => hs (not_returns_of_busStalls h)) (hk _)

/-- A list of writes stops after some of its bytes, or all of them are on the wire when the rest of the command runs. -/
theorem busWrites_ind {bs : List Byte} {k : State → State}
    (hs : ∀ pre, pre <+: bs → s.params.busAlwaysReturns = false →
      P (markStalled { s with trace := s.trace ++ pre.map .write }))
    (hk : P (k { s with trace := s.trace ++ bs.map .write })) : P (busWrites o bs s k) := by
  induction bs generalizing s with
  | nil => simpa [busWrites] using hk
  | cons b bs ih =>
    refine busWrite_ind (by simpa using hs [] (List.nil_prefix)) (ih (fun pre hp hb => ?_) ?_)
    · simpa [logEvent] using hs (b :: pre) (by simpa using hp) hb
    · simpa [logEvent] using hk

/-! Comparisons. -/

theorem crcCheck_match (b : Byte) (s : State) :
    crcCheck b b s = finish .eNone 0x01 { s with exp := some b, obs := some b, crcOk := true } := by simp [crcCheck]

theorem crcCheck_mismatch {a b : Byte} (h : a ≠ b) (s : State) :
    crcCheck a b s =
      finish .eCrc 0x00 { s with exp := some a, obs := some b, crcOk := false, dirty := true, wph := .idle } := by
  simp [crcCheck, h]

theorem crcCheck_ind {a b : Byte}
    (hm : a = b → P (finish .eNone 0x01 { s with exp := some a, obs := some b, crcOk := true }))
    (hn : a ≠ b →
      P (finish .eCrc 0x00 { s with exp := some a, obs := some b, crcOk := false, dirty := true, wph := .idle })) :
    P (crcCheck a b s) := by
  unfold crcCheck
  split
  · exact hm ‹_›
  · exact hn ‹_›

theorem writeEchoCheck_ind {a b : Byte}
    (hm : a = b → P (finish .eNone 0x01 { s with exp := some a, obs := some b, crcOk := true, wph := .awaitRb }))
    (hn : a ≠ b →
      P (finish .eCrc 0x00 { s with exp := some a, obs := some b, crcOk := false, dirty := true, wph := .idle })) :
    P (writeEchoCheck a b s) := by
  unfold writeEchoCheck
  by_cases h : a = b
  · simpa [h, crcCheck] using hm h
  · simpa [h, crcCheck] using hn h

theorem readbackCheck_ind {d b : Byte}
    (hm : b = d → P (finish .eNone 0x01 { s with exp := some d, obs := some b, vfyOk := true, wph := .ready }))
    (hn : b ≠ d →
      P (finish .eVerify 0x00 { s with exp := some d, obs := some b, vfyOk := false, dirty := true, wph := .idle })) :
    P (readbackCheck d b s) := by
  unfold readbackCheck
  split
  · exact hm ‹_›
  · exact hn ‹_›

/-! Operands. -/

theorem idxOperand_eq_none_iff (a : Word16) : idxOperand a = none ↔ 8 ≤ a.toNat := by simp [idxOperand]

theorem idxOperand_eq_some_iff (a : Word16) (i : Fin 8) : idxOperand a = some i ↔ a.toNat = i.val := by
  unfold idxOperand
  split
  · simp [Fin.ext_iff]
  · rename_i h
    have := i.isLt
    simp
    omega

theorem lenOperand_eq_none_iff (d : Byte) : lenOperand d = none ↔ 8 < d.toNat := by
  simp [lenOperand]
  omega

theorem lenOperand_eq_some_iff (d : Byte) (n : Fin 9) : lenOperand d = some n ↔ d.toNat = n.val := by
  unfold lenOperand
  split
  · simp [Fin.ext_iff]
  · rename_i h
    have := n.isLt
    simp
    omega

theorem selOperand_eq_none_iff (d : Byte) : selOperand d = none ↔ 9 < d.toNat := by
  revert d
  decide

/-- The range checks refuse exactly the instructions that are not well formed (30_encoding.md R72, R76). -/
theorem wellFormed_fbWr (a : Word16) (d : Byte) : (Instr.fbWr a d).wellFormed = (idxOperand a).isSome := by
  by_cases h : a.toNat < 8 <;> simp [Instr.wellFormed, idxOperand, h]

theorem wellFormed_fbRd (a : Word16) : (Instr.fbRd a).wellFormed = (idxOperand a).isSome := by
  by_cases h : a.toNat < 8 <;> simp [Instr.wellFormed, idxOperand, h]

theorem wellFormed_setLen (d : Byte) : (Instr.setLen d).wellFormed = (lenOperand d).isSome := by
  revert d
  decide

theorem wellFormed_txWriteBytes (d : Byte) : (Instr.txWriteBytes d).wellFormed = (lenOperand d).isSome := by
  revert d
  decide

theorem wellFormed_regRd (d : Byte) : (Instr.regRd d).wellFormed = (selOperand d).isSome := by
  revert d
  decide

/-! The stream and the halt marks. -/

theorem placeWord_get (ws : List CmdWord) (n : Nat) (w : CmdWord) : (placeWord ws n w)[n]? = some w := by
  induction n generalizing ws with
  | zero => cases ws <;> rfl
  | succ n ih => cases ws <;> simpa [placeWord] using ih _

theorem haltReason_eq_none_iff (s : State) : haltReason s = none ↔ s.faulted = none ∧ s.stalled = false := by
  unfold haltReason
  cases hf : s.faulted <;> simp

/-- A running block with a legal word at pc runs its instruction. -/
theorem step_of_decode {i : Instr} {w : CmdWord} (hf : s.faulted = none) (hs : s.stalled = false)
    (hw : s.stream[s.pc]? = some w) (hd : decode w = .ok i) : step s = exec i s := by
  simp [step, fetch, (haltReason_eq_none_iff s).mpr ⟨hf, hs⟩, hw, hd]

end Sys2Proof.Machine
end

