-- ==== Sys2Proof/Laws/Commands.lean ====
section
/-! SUPPORT. What each command that uses the bus, or reads a register that may hold no value, can do: a property of the state
it ends in follows from the property of each way it can end. Every command answers a next state. -/

namespace Sys2Proof.Machine

variable {P : State → Prop} {o : Oracle} {s : State}

/-- The state a command ends in, for any oracle. -/
def effectOf (o : Oracle) (i : Instr) (s : State) : State :=
  match i with
  | .fcValidateBus => validateBus o s
  | .fcSendRead a => sendRead o a s
  | .fcSendWrite a d => sendWrite o a d s
  | .fcSendWriteNext d => sendWriteNext o d s
  | .fcReadback d => readback o d s
  | .txReset => txReset o s
  | .txWriteBit v => txWriteBit o v s
  | .txReadBit => txReadBit o s
  | .txWriteByte d => txWriteByte o d s
  | .txReadByte => txReadByte o s
  | .txWriteBytes len => txWriteBytes o len s
  | .txSkip => txSkip o s
  | .txSearch => txSearch o s
  | .nop => finish .eNone 0x00 s
  | .crcInit => finish .eNone (crc8Init s.params.crc8) { s with crc := crc8Init s.params.crc8 }
  | .crcUpdate d => finish .eNone (crc8Step s.params.crc8 s.crc d) { s with crc := crc8Step s.params.crc8 s.crc d }
  | .crcCheckId =>
    readVal (fbPrefix 7 s) s fun bs => readVal s.fb[7] s fun obs => crcCheck (crc8 s.params.crc8 bs) obs s
  | .fcBuildRead a => finish .eNone 0x03 (putReadFrame a s)
  | .fcBuildWrite a d => finish .eNone 0x04 (putWriteFrame a d s)
  | .fcValidate d => readVal (fbPrefix s.flen.val s) s fun bs => crcCheck (crc8 s.params.crc8 bs) d s
  | .txResetSearch => finish .eNone 0x00 { logEvent .searchReset s with sexh := false }
  | .fbWr idx d =>
    match idxOperand idx with
    | none => finish .eOperand 0x00 s
    | some i => finish .eNone 0x00 { s with fb := s.fb.set i.val (some d) }
  | .fbRd idx =>
    match idxOperand idx with
    | none => finish .eOperand 0x00 s
    | some i => readVal s.fb[i.val] s fun b => finish .eNone b s
  | .setLen len =>
    match lenOperand len with
    | none => finish .eOperand 0x00 s
    | some n => finish .eNone len { s with flen := n }
  | .regRd sel =>
    match selOperand sel with
    | none => finish .eOperand 0x00 s
    | some r => readVal (readReg r s) s fun v => finish .eNone v s

/-- No command answers a fault or a refusal. -/
theorem exec_eq_next (i : Instr) (s : State) : exec i s = .next (effectOf Config.oracle i s) := by cases i <;> rfl

theorem eq_effectOf_of_exec {i : Instr} {t : State} (h : exec i s = .next t) : t = effectOf Config.oracle i s := by
  rw [exec_eq_next] at h
  injection h with h
  exact h.symm

/-- What a step can do: run the instruction at pc, or finish an illegal command. -/
theorem step_cases {t : State} (h : step s = .next t) :
    (s.faulted = none ∧ s.stalled = false) ∧ ∃ w, s.stream[s.pc]? = some w ∧
      ((∃ i, decode w = .ok i ∧ t = effectOf Config.oracle i s) ∨
        ∃ e, decode w = .error e ∧ t = finish .eIllegal 0x00 s) := by
  unfold step at h
  split at h
  · cases h
  · rename_i hr
    refine ⟨(haltReason_eq_none_iff s).mp hr, ?_⟩
    split at h
    · cases h
    · rename_i w hw
      refine ⟨w, hw, ?_⟩
      split at h
      · rename_i i hi
        exact .inl ⟨i, hi, eq_effectOf_of_exec h⟩
      · rename_i e he
        injection h with h
        exact .inr ⟨e, he, h.symm⟩

theorem checkId_ind
    (hf : (fbPrefix 7 s = none ∨ s.fb[7] = none) → P (raiseUnwritten s))
    (hm : ∀ bs b, fbPrefix 7 s = some bs → s.fb[7] = some b → crc8 s.params.crc8 bs = b →
      P (finish .eNone 0x01 { s with exp := some (crc8 s.params.crc8 bs), obs := some b, crcOk := true }))
    (hn : ∀ bs b, fbPrefix 7 s = some bs → s.fb[7] = some b → crc8 s.params.crc8 bs ≠ b →
      P (finish .eCrc 0x00 { s with
        exp := some (crc8 s.params.crc8 bs), obs := some b, crcOk := false, dirty := true, wph := .idle })) :
    P (effectOf o .crcCheckId s) :=
  readVal_ind (fun h => hf (.inl h)) fun bs hbs =>
    readVal_ind (fun h => hf (.inr h)) fun b hb => crcCheck_ind (hm bs b hbs hb) (hn bs b hbs hb)

theorem validate_ind {d : Byte} (hf : fbPrefix s.flen.val s = none → P (raiseUnwritten s))
    (hm : ∀ bs, fbPrefix s.flen.val s = some bs → crc8 s.params.crc8 bs = d →
      P (finish .eNone 0x01 { s with exp := some (crc8 s.params.crc8 bs), obs := some d, crcOk := true }))
    (hn : ∀ bs, fbPrefix s.flen.val s = some bs → crc8 s.params.crc8 bs ≠ d →
      P (finish .eCrc 0x00 { s with
        exp := some (crc8 s.params.crc8 bs), obs := some d, crcOk := false, dirty := true, wph := .idle })) :
    P (effectOf o (.fcValidate d) s) :=
  readVal_ind hf fun bs hbs => crcCheck_ind (hm bs hbs) (hn bs hbs)

theorem validateBus_ind (hf : fbPrefix s.flen.val s = none → P (raiseUnwritten s))
    (hs : ∀ bs, fbPrefix s.flen.val s = some bs → s.params.busAlwaysReturns = false → P (markStalled s))
    (hm : ∀ bs b, fbPrefix s.flen.val s = some bs → crc8 s.params.crc8 bs = b →
      P (finish .eNone 0x01 { s with
        trace := s.trace ++ [.read b], rxb := some b,
        exp := some (crc8 s.params.crc8 bs), obs := some b, crcOk := true }))
    (hn : ∀ bs b, fbPrefix s.flen.val s = some bs → crc8 s.params.crc8 bs ≠ b →
      P (finish .eCrc 0x00 { s with
        trace := s.trace ++ [.read b], rxb := some b,
        exp := some (crc8 s.params.crc8 bs), obs := some b, crcOk := false, dirty := true, wph := .idle })) :
    P (validateBus o s) :=
  readVal_ind hf fun bs hbs => busRead_ind (hs bs hbs) fun b => crcCheck_ind (hm bs b hbs) (hn bs b hbs)

theorem sendRead_ind {a : Word16}
    (hs : ∀ pre, pre <+: readFrame a → s.params.busAlwaysReturns = false →
      P (markStalled { putReadFrame a s with wph := .idle, trace := s.trace ++ pre.map .write }))
    (hm : ∀ b, crc8 s.params.crc8 (readFrame a) = b →
      P (finish .eNone 0x01 { putReadFrame a s with
        wph := .idle, trace := s.trace ++ (readFrame a).map .write ++ [.read b], rxb := some b,
        exp := some (crc8 s.params.crc8 (readFrame a)), obs := some b, crcOk := true }))
    (hn : ∀ b, crc8 s.params.crc8 (readFrame a) ≠ b →
      P (finish .eCrc 0x00 { putReadFrame a s with
        wph := .idle, trace := s.trace ++ (readFrame a).map .write ++ [.read b], rxb := some b,
        exp := some (crc8 s.params.crc8 (readFrame a)), obs := some b, crcOk := false, dirty := true })) :
    P (sendRead o a s) :=
  busWrites_ind hs (busRead_ind (hs _ (List.prefix_refl _)) fun b => crcCheck_ind (hm b) (hn b))

theorem sendWrite_ind {a : Word16} {d : Byte}
    (hs : ∀ pre, pre <+: writeFrame a d → s.params.busAlwaysReturns = false →
      P (markStalled { putWriteFrame a d s with
        waddr := some a, wph := .idle, trace := s.trace ++ pre.map .write }))
    (hm : ∀ b, crc8 s.params.crc8 (writeFrame a d) = b →
      P (finish .eNone 0x01 { putWriteFrame a d s with
        waddr := some a, wph := .awaitRb, trace := s.trace ++ (writeFrame a d).map .write ++ [.read b], rxb := some b,
        exp := some (crc8 s.params.crc8 (writeFrame a d)), obs := some b, crcOk := true }))
    (hn : ∀ b, crc8 s.params.crc8 (writeFrame a d) ≠ b →
      P (finish .eCrc 0x00 { putWriteFrame a d s with
        waddr := some a, wph := .idle, trace := s.trace ++ (writeFrame a d).map .write ++ [.read b], rxb := some b,
        exp := some (crc8 s.params.crc8 (writeFrame a d)), obs := some b, crcOk := false, dirty := true })) :
    P (sendWrite o a d s) :=
  busWrites_ind hs (busRead_ind (hs _ (List.prefix_refl _)) fun b => writeEchoCheck_ind (hm b) (hn b))

theorem sendWriteNext_ind {d : Byte} (hseq : s.wph ≠ .ready → P (finish .eSeq 0x00 s))
    (hf : s.wph = .ready → s.waddr = none → P (raiseUnwritten s))
    (hs : ∀ w pre, s.wph = .ready → s.waddr = some w → pre <+: [d] → s.params.busAlwaysReturns = false →
      P (markStalled { putWriteFrame (w + 1) d s with
        waddr := some (w + 1), wph := .idle, trace := s.trace ++ pre.map .write }))
    (hm : ∀ w b, s.wph = .ready → s.waddr = some w →
      crc8 s.params.crc8 (wrNextBytes s.params.wrNextScope (w + 1) d) = b →
      P (finish .eNone 0x01 { putWriteFrame (w + 1) d s with
        waddr := some (w + 1), wph := .awaitRb, trace := s.trace ++ [.write d] ++ [.read b], rxb := some b,
        exp := some (crc8 s.params.crc8 (wrNextBytes s.params.wrNextScope (w + 1) d)), obs := some b, crcOk := true }))
    (hn : ∀ w b, s.wph = .ready → s.waddr = some w →
      crc8 s.params.crc8 (wrNextBytes s.params.wrNextScope (w + 1) d) ≠ b →
      P (finish .eCrc 0x00 { putWriteFrame (w + 1) d s with
        waddr := some (w + 1), wph := .idle, trace := s.trace ++ [.write d] ++ [.read b], rxb := some b,
        exp := some (crc8 s.params.crc8 (wrNextBytes s.params.wrNextScope (w + 1) d)), obs := some b, crcOk := false,
        dirty := true })) :
    P (sendWriteNext o d s) := by
  unfold sendWriteNext
  split
  · rename_i h
    refine readVal_ind (hf h) fun w hw => busWrite_ind ?_ (busRead_ind ?_ fun b => ?_)
    · simpa using hs w [] h hw List.nil_prefix
    · exact hs w [d] h hw (List.prefix_refl _)
    · exact writeEchoCheck_ind (hm w b h hw) (hn w b h hw)
  · exact hseq ‹_›

theorem readback_ind {d : Byte} (hseq : s.wph ≠ .awaitRb → P (finish .eSeq 0x00 s))
    (hs : s.wph = .awaitRb → s.params.busAlwaysReturns = false → P (markStalled s))
    (hm : ∀ b, s.wph = .awaitRb → b = d →
      P (finish .eNone 0x01 { s with
        trace := s.trace ++ [.read b], rxb := some b, exp := some d, obs := some b, vfyOk := true, wph := .ready }))
    (hn : ∀ b, s.wph = .awaitRb → b ≠ d →
      P (finish .eVerify 0x00 { s with
        trace := s.trace ++ [.read b], rxb := some b, exp := some d, obs := some b, vfyOk := false, dirty := true,
        wph := .idle })) :
    P (readback o d s) := by
  unfold readback
  split
  · rename_i h
    exact busRead_ind (hs h) fun b => readbackCheck_ind (hm b h) (hn b h)
  · exact hseq ‹_›

theorem txReset_ind (hs : s.params.busAlwaysReturns = false → P (markStalled s))
    (hk : ∀ p, P (finish .eNone (bitByte p)
      { s with trace := s.trace ++ [.reset p], pres := p, wph := .idle, dirty := false })) : P (txReset o s) :=
  busReset_ind hs hk

theorem txWriteBytes_ind {len : Byte} (hop : lenOperand len = none → P (finish .eOperand 0x00 s))
    (hf : ∀ n, lenOperand len = some n → fbPrefix n.val s = none → P (raiseUnwritten s))
    (hs : ∀ n bs pre, lenOperand len = some n → fbPrefix n.val s = some bs → pre <+: bs →
      s.params.busAlwaysReturns = false →
      P (markStalled { s with trace := s.trace ++ pre.map .write }))
    (hk : ∀ n bs, lenOperand len = some n → fbPrefix n.val s = some bs →
      P (finish .eNone len { s with trace := s.trace ++ bs.map .write })) : P (txWriteBytes o len s) := by
  unfold txWriteBytes
  split
  · exact hop ‹_›
  · rename_i n hn
    exact readVal_ind (hf n hn) fun bs hbs => busWrites_ind (hs n bs · hn hbs) (hk n bs hn hbs)

theorem txSearch_ind (hs : s.params.busAlwaysReturns = false → P (markStalled s))
    (hfound : ∀ ident : Ident, P (finish .eNone 0x01 { s with
      trace := s.trace ++ [.search (some ident)], wph := .idle, fb := ident.map some, flen := 8, found := true,
      sexh := false }))
    (hnone : P (finish .eNone 0x00 { s with
      trace := s.trace ++ [.search none], wph := .idle, found := false, sexh := true })) : P (txSearch o s) :=
  busSearch_ind hs fun r =>
    match r with
    | some ident => hfound ident
    | none => hnone

theorem fbWr_ind {idx : Word16} {d : Byte} (hop : idxOperand idx = none → P (finish .eOperand 0x00 s))
    (hk : ∀ i : Fin 8, idxOperand idx = some i → P (finish .eNone 0x00 { s with fb := s.fb.set i.val (some d) })) :
    P (effectOf o (.fbWr idx d) s) := by
  simp only [effectOf]
  split
  · exact hop ‹_›
  · exact hk _ ‹_›

theorem fbRd_ind {idx : Word16} (hop : idxOperand idx = none → P (finish .eOperand 0x00 s))
    (hf : ∀ i : Fin 8, idxOperand idx = some i → s.fb[i.val] = none → P (raiseUnwritten s))
    (hk : ∀ (i : Fin 8) b, idxOperand idx = some i → s.fb[i.val] = some b → P (finish .eNone b s)) :
    P (effectOf o (.fbRd idx) s) := by
  simp only [effectOf]
  split
  · exact hop ‹_›
  · exact readVal_ind (hf _ ‹_›) fun b => hk _ b ‹_›

theorem setLen_ind {len : Byte} (hop : lenOperand len = none → P (finish .eOperand 0x00 s))
    (hk : ∀ n, lenOperand len = some n → P (finish .eNone len { s with flen := n })) :
    P (effectOf o (.setLen len) s) := by
  simp only [effectOf]
  split
  · exact hop ‹_›
  · exact hk _ ‹_›

theorem regRd_ind {sel : Byte} (hop : selOperand sel = none → P (finish .eOperand 0x00 s))
    (hf : ∀ r, selOperand sel = some r → readReg r s = none → P (raiseUnwritten s))
    (hk : ∀ r v, selOperand sel = some r → readReg r s = some v → P (finish .eNone v s)) :
    P (effectOf o (.regRd sel) s) := by
  simp only [effectOf]
  split
  · exact hop ‹_›
  · exact readVal_ind (hf _ ‹_›) fun v => hk _ v ‹_›

end Sys2Proof.Machine
end

