-- ==== Sys2Proof/Laws/Ends.lean ====
section
/-! SUPPORT. The one inversion lemma of exec: if a command answers a next state, it ended in one of the ways that Ends lists, each
with the state in full. A property of every command is one case analysis of it. -/

namespace Sys2Proof.Machine

/-- Every way a command can end: the state it ends in, and what led there. -/
inductive Ends : Instr → State → State → Prop where
  | nop (s) : Ends .nop s (finish .eNone 0x00 s)
  | crcInit (s) : Ends .crcInit s
      (finish .eNone (crc8Init s.params.crc8) { s with crc := crc8Init s.params.crc8 })
  | crcUpdate (s d) : Ends (.crcUpdate d) s
      (finish .eNone (crc8Step s.params.crc8 s.crc d) { s with crc := crc8Step s.params.crc8 s.crc d })
  | checkIdNoValue (s) (h : fbPrefix 7 s = none ∨ s.fb[7] = none) : Ends .crcCheckId s (raiseUnwritten s)
  | checkIdMatch (s bs b) (hp : fbPrefix 7 s = some bs) (hb : s.fb[7] = some b) (hc : crc8 s.params.crc8 bs = b) :
      Ends .crcCheckId s
        (finish .eNone 0x01 { s with exp := some (crc8 s.params.crc8 bs), obs := some b, crcOk := true })
  | checkIdMismatch (s bs b) (hp : fbPrefix 7 s = some bs) (hb : s.fb[7] = some b) (hc : crc8 s.params.crc8 bs ≠ b) :
      Ends .crcCheckId s
        (finish .eCrc 0x00 { s with
          exp := some (crc8 s.params.crc8 bs), obs := some b, crcOk := false, dirty := true, wph := .idle })
  | buildRead (s a) : Ends (.fcBuildRead a) s (finish .eNone 0x03 (putReadFrame a s))
  | buildWrite (s a d) : Ends (.fcBuildWrite a d) s (finish .eNone 0x04 (putWriteFrame a d s))
  | validateNoValue (s d) (h : fbPrefix s.flen.val s = none) : Ends (.fcValidate d) s (raiseUnwritten s)
  | validateMatch (s d bs) (hp : fbPrefix s.flen.val s = some bs) (hc : crc8 s.params.crc8 bs = d) :
      Ends (.fcValidate d) s
        (finish .eNone 0x01 { s with exp := some (crc8 s.params.crc8 bs), obs := some d, crcOk := true })
  | validateMismatch (s d bs) (hp : fbPrefix s.flen.val s = some bs) (hc : crc8 s.params.crc8 bs ≠ d) :
      Ends (.fcValidate d) s
        (finish .eCrc 0x00 { s with
          exp := some (crc8 s.params.crc8 bs), obs := some d, crcOk := false, dirty := true, wph := .idle })
  | validateBusNoValue (s) (h : fbPrefix s.flen.val s = none) : Ends .fcValidateBus s (raiseUnwritten s)
  | validateBusStall (s bs) (hp : fbPrefix s.flen.val s = some bs)
      (hb : s.params.busAlwaysReturns = false) : Ends .fcValidateBus s (markStalled s)
  | validateBusMatch (s bs b) (hp : fbPrefix s.flen.val s = some bs) (hc : crc8 s.params.crc8 bs = b) :
      Ends .fcValidateBus s
        (finish .eNone 0x01 { s with
          trace := s.trace ++ [.read b], rxb := some b,
          exp := some (crc8 s.params.crc8 bs), obs := some b, crcOk := true })
  | validateBusMismatch (s bs b) (hp : fbPrefix s.flen.val s = some bs) (hc : crc8 s.params.crc8 bs ≠ b) :
      Ends .fcValidateBus s
        (finish .eCrc 0x00 { s with
          trace := s.trace ++ [.read b], rxb := some b,
          exp := some (crc8 s.params.crc8 bs), obs := some b, crcOk := false, dirty := true, wph := .idle })
  | sendReadStall (s a pre) (hp : pre <+: readFrame a)
      (hb : s.params.busAlwaysReturns = false) : Ends (.fcSendRead a) s
      (markStalled { putReadFrame a s with wph := .idle, trace := s.trace ++ pre.map .write })
  | sendReadMatch (s a b) (hc : crc8 s.params.crc8 (readFrame a) = b) : Ends (.fcSendRead a) s
      (finish .eNone 0x01 { putReadFrame a s with
        wph := .idle, trace := s.trace ++ (readFrame a).map .write ++ [.read b], rxb := some b,
        exp := some (crc8 s.params.crc8 (readFrame a)), obs := some b, crcOk := true })
  | sendReadMismatch (s a b) (hc : crc8 s.params.crc8 (readFrame a) ≠ b) : Ends (.fcSendRead a) s
      (finish .eCrc 0x00 { putReadFrame a s with
        wph := .idle, trace := s.trace ++ (readFrame a).map .write ++ [.read b], rxb := some b,
        exp := some (crc8 s.params.crc8 (readFrame a)), obs := some b, crcOk := false, dirty := true })
  | sendWriteStall (s a d pre) (hp : pre <+: writeFrame a d)
      (hb : s.params.busAlwaysReturns = false) : Ends (.fcSendWrite a d) s
      (markStalled { putWriteFrame a d s with
        waddr := some a, wph := .idle, trace := s.trace ++ pre.map .write })
  | sendWriteMatch (s a d b) (hc : crc8 s.params.crc8 (writeFrame a d) = b) : Ends (.fcSendWrite a d) s
      (finish .eNone 0x01 { putWriteFrame a d s with
        waddr := some a, wph := .awaitRb, trace := s.trace ++ (writeFrame a d).map .write ++ [.read b], rxb := some b,
        exp := some (crc8 s.params.crc8 (writeFrame a d)), obs := some b, crcOk := true })
  | sendWriteMismatch (s a d b) (hc : crc8 s.params.crc8 (writeFrame a d) ≠ b) : Ends (.fcSendWrite a d) s
      (finish .eCrc 0x00 { putWriteFrame a d s with
        waddr := some a, wph := .idle, trace := s.trace ++ (writeFrame a d).map .write ++ [.read b], rxb := some b,
        exp := some (crc8 s.params.crc8 (writeFrame a d)), obs := some b, crcOk := false, dirty := true })
  | sendWriteNextSeq (s d) (h : s.wph ≠ .ready) : Ends (.fcSendWriteNext d) s (finish .eSeq 0x00 s)
  | sendWriteNextNoValue (s d) (h : s.wph = .ready) (hw : s.waddr = none) :
      Ends (.fcSendWriteNext d) s (raiseUnwritten s)
  | sendWriteNextStall (s d w pre) (h : s.wph = .ready) (hw : s.waddr = some w) (hp : pre <+: [d])
      (hb : s.params.busAlwaysReturns = false) :
      Ends (.fcSendWriteNext d) s
        (markStalled { putWriteFrame (w + 1) d s with
          waddr := some (w + 1), wph := .idle, trace := s.trace ++ pre.map .write })
  | sendWriteNextMatch (s d w b) (h : s.wph = .ready) (hw : s.waddr = some w)
      (hc : crc8 s.params.crc8 (wrNextBytes s.params.wrNextScope (w + 1) d) = b) :
      Ends (.fcSendWriteNext d) s
        (finish .eNone 0x01 { putWriteFrame (w + 1) d s with
          waddr := some (w + 1), wph := .awaitRb, trace := s.trace ++ [.write d] ++ [.read b], rxb := some b,
          exp := some (crc8 s.params.crc8 (wrNextBytes s.params.wrNextScope (w + 1) d)), obs := some b, crcOk := true })
  | sendWriteNextMismatch (s d w b) (h : s.wph = .ready) (hw : s.waddr = some w)
      (hc : crc8 s.params.crc8 (wrNextBytes s.params.wrNextScope (w + 1) d) ≠ b) :
      Ends (.fcSendWriteNext d) s
        (finish .eCrc 0x00 { putWriteFrame (w + 1) d s with
          waddr := some (w + 1), wph := .idle, trace := s.trace ++ [.write d] ++ [.read b], rxb := some b,
          exp := some (crc8 s.params.crc8 (wrNextBytes s.params.wrNextScope (w + 1) d)), obs := some b, crcOk := false,
          dirty := true })
  | readbackSeq (s d) (h : s.wph ≠ .awaitRb) : Ends (.fcReadback d) s (finish .eSeq 0x00 s)
  | readbackStall (s d) (h : s.wph = .awaitRb) (hb : s.params.busAlwaysReturns = false) : Ends (.fcReadback d) s (markStalled s)
  | readbackMatch (s d b) (h : s.wph = .awaitRb) (hc : b = d) : Ends (.fcReadback d) s
      (finish .eNone 0x01 { s with
        trace := s.trace ++ [.read b], rxb := some b, exp := some d, obs := some b, vfyOk := true, wph := .ready })
  | readbackMismatch (s d b) (h : s.wph = .awaitRb) (hc : b ≠ d) : Ends (.fcReadback d) s
      (finish .eVerify 0x00 { s with
        trace := s.trace ++ [.read b], rxb := some b, exp := some d, obs := some b, vfyOk := false, dirty := true,
        wph := .idle })
  | txResetStall (s) (hb : s.params.busAlwaysReturns = false) : Ends .txReset s (markStalled s)
  | txReset (s p) : Ends .txReset s
      (finish .eNone (bitByte p) { s with trace := s.trace ++ [.reset p], pres := p, wph := .idle, dirty := false })
  | txWriteBitStall (s v) (hb : s.params.busAlwaysReturns = false) : Ends (.txWriteBit v) s (markStalled s)
  | txWriteBit (s v) : Ends (.txWriteBit v) s (finish .eNone 0x00 { s with trace := s.trace ++ [.writeBit v] })
  | txReadBitStall (s) (hb : s.params.busAlwaysReturns = false) : Ends .txReadBit s (markStalled s)
  | txReadBit (s v) : Ends .txReadBit s (finish .eNone (bitByte v) { s with trace := s.trace ++ [.readBit v] })
  | txWriteByteStall (s d) (hb : s.params.busAlwaysReturns = false) : Ends (.txWriteByte d) s (markStalled s)
  | txWriteByte (s d) : Ends (.txWriteByte d) s (finish .eNone 0x00 { s with trace := s.trace ++ [.write d] })
  | txReadByteStall (s) (hb : s.params.busAlwaysReturns = false) : Ends .txReadByte s (markStalled s)
  | txReadByte (s b) : Ends .txReadByte s
      (finish .eNone b { s with trace := s.trace ++ [.read b], rxb := some b })
  | txWriteBytesOperand (s len) (h : lenOperand len = none) : Ends (.txWriteBytes len) s (finish .eOperand 0x00 s)
  | txWriteBytesNoValue (s len n) (h : lenOperand len = some n) (hp : fbPrefix n.val s = none) :
      Ends (.txWriteBytes len) s (raiseUnwritten s)
  | txWriteBytesStall (s len n bs pre) (h : lenOperand len = some n) (hp : fbPrefix n.val s = some bs)
      (hpre : pre <+: bs) (hb : s.params.busAlwaysReturns = false) :
      Ends (.txWriteBytes len) s (markStalled { s with trace := s.trace ++ pre.map .write })
  | txWriteBytes (s len n bs) (h : lenOperand len = some n) (hp : fbPrefix n.val s = some bs) :
      Ends (.txWriteBytes len) s (finish .eNone len { s with trace := s.trace ++ bs.map .write })
  | txSkipStall (s) (hb : s.params.busAlwaysReturns = false) : Ends .txSkip s (markStalled s)
  | txSkip (s) : Ends .txSkip s (finish .eNone 0x00 { s with trace := s.trace ++ [.write s.params.skipRom] })
  | txSearchStall (s) (hb : s.params.busAlwaysReturns = false) : Ends .txSearch s (markStalled s)
  | txSearchFound (s) (ident : Ident) : Ends .txSearch s
      (finish .eNone 0x01 { s with
        trace := s.trace ++ [.search (some ident)], wph := .idle, fb := ident.map some, flen := 8, found := true,
        sexh := false })
  | txSearchNone (s) : Ends .txSearch s
      (finish .eNone 0x00 { s with trace := s.trace ++ [.search none], wph := .idle, found := false, sexh := true })
  | txResetSearch (s) : Ends .txResetSearch s
      (finish .eNone 0x00 { s with trace := s.trace ++ [.searchReset], sexh := false })
  | fbWrOperand (s idx d) (h : idxOperand idx = none) : Ends (.fbWr idx d) s (finish .eOperand 0x00 s)
  | fbWr (s idx d) (i : Fin 8) (h : idxOperand idx = some i) :
      Ends (.fbWr idx d) s (finish .eNone 0x00 { s with fb := s.fb.set i.val (some d) })
  | fbRdOperand (s idx) (h : idxOperand idx = none) : Ends (.fbRd idx) s (finish .eOperand 0x00 s)
  | fbRdNoValue (s idx) (i : Fin 8) (h : idxOperand idx = some i) (hb : s.fb[i.val] = none) :
      Ends (.fbRd idx) s (raiseUnwritten s)
  | fbRd (s idx b) (i : Fin 8) (h : idxOperand idx = some i) (hb : s.fb[i.val] = some b) :
      Ends (.fbRd idx) s (finish .eNone b s)
  | setLenOperand (s len) (h : lenOperand len = none) : Ends (.setLen len) s (finish .eOperand 0x00 s)
  | setLen (s len n) (h : lenOperand len = some n) : Ends (.setLen len) s (finish .eNone len { s with flen := n })
  | regRdOperand (s sel) (h : selOperand sel = none) : Ends (.regRd sel) s (finish .eOperand 0x00 s)
  | regRdNoValue (s sel r) (h : selOperand sel = some r) (hv : readReg r s = none) :
      Ends (.regRd sel) s (raiseUnwritten s)
  | regRd (s sel r v) (h : selOperand sel = some r) (hv : readReg r s = some v) :
      Ends (.regRd sel) s (finish .eNone v s)

/-- A command ends in one of those ways, whatever the oracle. -/
theorem effectOf_ends (o : Oracle) (i : Instr) (s : State) : Ends i s (effectOf o i s) := by
  cases i with
  | nop => exact .nop s
  | crcInit => exact .crcInit s
  | crcUpdate d => exact .crcUpdate s d
  | crcCheckId => exact checkId_ind (P := Ends _ s) (.checkIdNoValue s) (.checkIdMatch s) (.checkIdMismatch s)
  | fcBuildRead a => exact .buildRead s a
  | fcBuildWrite a d => exact .buildWrite s a d
  | fcValidate d =>
    exact validate_ind (P := Ends _ s) (.validateNoValue s d) (.validateMatch s d) (.validateMismatch s d)
  | fcValidateBus =>
    exact validateBus_ind (P := Ends _ s) (.validateBusNoValue s) (.validateBusStall s) (.validateBusMatch s)
      (.validateBusMismatch s)
  | fcSendRead a =>
    exact sendRead_ind (P := Ends _ s) (.sendReadStall s a) (.sendReadMatch s a) (.sendReadMismatch s a)
  | fcSendWrite a d =>
    exact sendWrite_ind (P := Ends _ s) (.sendWriteStall s a d) (.sendWriteMatch s a d) (.sendWriteMismatch s a d)
  | fcSendWriteNext d =>
    exact sendWriteNext_ind (P := Ends _ s) (.sendWriteNextSeq s d) (.sendWriteNextNoValue s d)
      (.sendWriteNextStall s d) (.sendWriteNextMatch s d) (.sendWriteNextMismatch s d)
  | fcReadback d =>
    exact readback_ind (P := Ends _ s) (.readbackSeq s d) (.readbackStall s d) (.readbackMatch s d)
      (.readbackMismatch s d)
  | txReset => exact txReset_ind (P := Ends _ s) (.txResetStall s) (.txReset s)
  | txWriteBit v => exact busWriteBit_ind (P := Ends _ s) (.txWriteBitStall s v) (.txWriteBit s v)
  | txReadBit => exact busReadBit_ind (P := Ends _ s) (.txReadBitStall s) (.txReadBit s)
  | txWriteByte d => exact busWrite_ind (P := Ends _ s) (.txWriteByteStall s d) (.txWriteByte s d)
  | txReadByte => exact busRead_ind (P := Ends _ s) (.txReadByteStall s) (.txReadByte s)
  | txWriteBytes len =>
    exact txWriteBytes_ind (P := Ends _ s) (.txWriteBytesOperand s len) (.txWriteBytesNoValue s len)
      (.txWriteBytesStall s len) (.txWriteBytes s len)
  | txSkip => exact busWrite_ind (P := Ends _ s) (.txSkipStall s) (.txSkip s)
  | txSearch => exact txSearch_ind (P := Ends _ s) (.txSearchStall s) (.txSearchFound s) (.txSearchNone s)
  | txResetSearch => exact .txResetSearch s
  | fbWr idx d => exact fbWr_ind (P := Ends _ s) (.fbWrOperand s idx d) (.fbWr s idx d)
  | fbRd idx =>
    exact fbRd_ind (P := Ends _ s) (.fbRdOperand s idx) (.fbRdNoValue s idx) (fun i b => .fbRd s idx b i)
  | setLen len => exact setLen_ind (P := Ends _ s) (.setLenOperand s len) (.setLen s len)
  | regRd sel => exact regRd_ind (P := Ends _ s) (.regRdOperand s sel) (.regRdNoValue s sel) (.regRd s sel)

/-- If exec answers a next state, the command ended in one of those ways. -/
theorem ends_of_exec {i : Instr} {s t : State} (h : exec i s = .next t) : Ends i s t := by
  rw [eq_effectOf_of_exec h]
  exact effectOf_ends _ i s

end Sys2Proof.Machine
end

