-- ==== Sys2Proof/Laws/PerInstr.lean ====
section
/-! SUPPORT. Statements made per instruction. Family EncodeFields: the three fields of an instruction's command word are its
opcode and its operands (30_encoding.md R70, R74), and its opcode is legal. -/

namespace Sys2Proof

set_option Elab.async false

theorem opField_packWord (op : Byte) (a : Word16) (d : Byte) : opField (packWord op a d) = op := by
  unfold opField packWord
  apply BitVec.eq_of_getLsbD_eq
  intro k hk
  simp only [BitVec.getLsbD_extractLsb', BitVec.getLsbD_append]
  simp [hk, show ¬ (24 + k < 8) by omega, show ¬ (24 + k - 8 < 16) by omega, show 24 + k - 8 - 16 = k by omega]

theorem aField_packWord (op : Byte) (a : Word16) (d : Byte) : aField (packWord op a d) = a := by
  unfold aField packWord
  apply BitVec.eq_of_getLsbD_eq
  intro k hk
  simp only [BitVec.getLsbD_extractLsb', BitVec.getLsbD_append]
  simp [hk, show ¬ (8 + k < 8) by omega]

theorem dField_packWord (op : Byte) (a : Word16) (d : Byte) : dField (packWord op a d) = d := by
  unfold dField packWord
  apply BitVec.eq_of_getLsbD_eq
  intro k hk
  simp only [BitVec.getLsbD_extractLsb', BitVec.getLsbD_append]
  simp [hk]

theorem dBit_packWord (op : Byte) (a : Word16) (d : Byte) : dBit (packWord op a d) = d.getLsbD 0 := by
  simp only [dBit, packWord, BitVec.getLsbD_append]
  simp

end Sys2Proof

namespace Sys2Proof.Laws.EncodeFields

set_option Elab.async false

/-- The fields of the word of `i` are its opcode and operands, and its opcode is in the map of R74. -/
def Statement (i : Instr) : Prop :=
  opField (encode i) = i.opcode ∧ aField (encode i) = i.aOperand ∧ dField (encode i) = i.dOperand ∧
    i.opcode.toNat ∈ [0x00, 0x10, 0x11, 0x12, 0x20, 0x21, 0x22, 0x23, 0x24, 0x25, 0x26, 0x27, 0x30, 0x31, 0x32, 0x33,
      0x34, 0x35, 0x36, 0x37, 0x38, 0x40, 0x41, 0x42, 0x43]

/-- The fields part holds of every instruction. -/
theorem fields (i : Instr) :
    opField (encode i) = i.opcode ∧ aField (encode i) = i.aOperand ∧ dField (encode i) = i.dOperand :=
  ⟨opField_packWord _ _ _, aField_packWord _ _ _, dField_packWord _ _ _⟩

theorem of_opcode {i : Instr} (h : i.opcode.toNat ∈ [0x00, 0x10, 0x11, 0x12, 0x20, 0x21, 0x22, 0x23, 0x24, 0x25, 0x26, 0x27,
    0x30, 0x31, 0x32, 0x33, 0x34, 0x35, 0x36, 0x37, 0x38, 0x40, 0x41, 0x42, 0x43]) : Statement i :=
  ⟨(fields i).1, (fields i).2.1, (fields i).2.2, h⟩

theorem nop : Statement .nop := of_opcode (by decide)
theorem crcInit : Statement .crcInit := of_opcode (by decide)
theorem crcUpdate (d : Byte) : Statement (.crcUpdate d) := of_opcode (by simp [Instr.opcode])
theorem crcCheckId : Statement .crcCheckId := of_opcode (by decide)
theorem fcBuildRead (a : Word16) : Statement (.fcBuildRead a) := of_opcode (by simp [Instr.opcode])
theorem fcBuildWrite (a : Word16) (d : Byte) : Statement (.fcBuildWrite a d) := of_opcode (by simp [Instr.opcode])
theorem fcValidate (d : Byte) : Statement (.fcValidate d) := of_opcode (by simp [Instr.opcode])
theorem fcValidateBus : Statement .fcValidateBus := of_opcode (by decide)
theorem fcSendRead (a : Word16) : Statement (.fcSendRead a) := of_opcode (by simp [Instr.opcode])
theorem fcSendWrite (a : Word16) (d : Byte) : Statement (.fcSendWrite a d) := of_opcode (by simp [Instr.opcode])
theorem fcSendWriteNext (d : Byte) : Statement (.fcSendWriteNext d) := of_opcode (by simp [Instr.opcode])
theorem fcReadback (d : Byte) : Statement (.fcReadback d) := of_opcode (by simp [Instr.opcode])
theorem txReset : Statement .txReset := of_opcode (by decide)
theorem txWriteBit (v : Bool) : Statement (.txWriteBit v) := of_opcode (by simp [Instr.opcode])
theorem txReadBit : Statement .txReadBit := of_opcode (by decide)
theorem txWriteByte (d : Byte) : Statement (.txWriteByte d) := of_opcode (by simp [Instr.opcode])
theorem txReadByte : Statement .txReadByte := of_opcode (by decide)
theorem txWriteBytes (len : Byte) : Statement (.txWriteBytes len) := of_opcode (by simp [Instr.opcode])
theorem txSkip : Statement .txSkip := of_opcode (by decide)
theorem txSearch : Statement .txSearch := of_opcode (by decide)
theorem txResetSearch : Statement .txResetSearch := of_opcode (by decide)
theorem fbWr (idx : Word16) (d : Byte) : Statement (.fbWr idx d) := of_opcode (by simp [Instr.opcode])
theorem fbRd (idx : Word16) : Statement (.fbRd idx) := of_opcode (by simp [Instr.opcode])
theorem setLen (len : Byte) : Statement (.setLen len) := of_opcode (by simp [Instr.opcode])
theorem regRd (sel : Byte) : Statement (.regRd sel) := of_opcode (by simp [Instr.opcode])

end Sys2Proof.Laws.EncodeFields
end

