-- ==== Sys2Proof/Machine/Assembler.lean ====
section
/-! DEFINITION. The assembler syntax of 30_encoding.md R84: one command per line, operands A before D, an omitted operand
assembles as 0. It is notation, not hardware. Lines are lists of characters. -/

namespace Sys2Proof.Machine

/-- The operand column of R74: which fields a mnemonic's operands fill, in order. -/
inductive OperandShape where
  | none
  | a
  | d
  | aThenD
deriving DecidableEq, Repr

/-- A row of the opcode map (R74). -/
structure AsmRow where
  mnemonic : String
  op : Byte
  shape : OperandShape
deriving DecidableEq, Repr

/-- The rows of R74. -/
def asmRows : List AsmRow :=
  [⟨"NOP", 0x00, .none⟩, ⟨"CRC_INIT", 0x10, .none⟩, ⟨"CRC_UPDATE", 0x11, .d⟩, ⟨"CRC_CHECK_ID", 0x12, .none⟩] ++
  [⟨"FC_BUILD_READ", 0x20, .a⟩, ⟨"FC_BUILD_WRITE", 0x21, .aThenD⟩, ⟨"FC_VALIDATE", 0x22, .d⟩,
   ⟨"FC_VALIDATE_BUS", 0x23, .none⟩, ⟨"FC_SEND_READ", 0x24, .a⟩, ⟨"FC_SEND_WRITE", 0x25, .aThenD⟩,
   ⟨"FC_SEND_WRITE_NEXT", 0x26, .d⟩, ⟨"FC_READBACK", 0x27, .d⟩] ++
  [⟨"TX_RESET", 0x30, .none⟩, ⟨"TX_WRITE_BIT", 0x31, .d⟩, ⟨"TX_READ_BIT", 0x32, .none⟩, ⟨"TX_WRITE_BYTE", 0x33, .d⟩,
   ⟨"TX_READ_BYTE", 0x34, .none⟩, ⟨"TX_WRITE_BYTES", 0x35, .d⟩, ⟨"TX_SKIP", 0x36, .none⟩, ⟨"TX_SEARCH", 0x37, .none⟩,
   ⟨"TX_RESET_SEARCH", 0x38, .none⟩] ++
  [⟨"FB_WR", 0x40, .aThenD⟩, ⟨"FB_RD", 0x41, .a⟩, ⟨"SET_LEN", 0x42, .d⟩, ⟨"REG_RD", 0x43, .d⟩]

/-- A blank between tokens. -/
def isBlank (c : Char) : Bool := c = ' ' || c = '\t'

/-- A list of characters without blanks at either end. -/
def trimBlanks (cs : List Char) : List Char := ((cs.dropWhile isBlank).reverse.dropWhile isBlank).reverse

/-- The value of a digit in base 16 or 10. -/
def digitValue (base : Nat) (c : Char) : Option Nat :=
  let n := c.toNat
  let v := if 48 ≤ n ∧ n ≤ 57 then n - 48 else if 65 ≤ n ∧ n ≤ 70 then n - 55 else if 97 ≤ n ∧ n ≤ 102 then n - 87 else base
  if v < base then some v else none

/-- The value of a list of digits after a value already read. -/
def digitsValue (base : Nat) : Nat → List Char → Option Nat
  | acc, [] => some acc
  | acc, c :: cs =>
    match digitValue base c with
    | some v => digitsValue base (acc * base + v) cs
    | none => none

/-- operand := number, 0x-prefixed hex or decimal. -/
def parseNumber : List Char → Option Nat
  | [] => none
  | '0' :: 'x' :: c :: cs => digitsValue 16 0 (c :: cs)
  | c :: cs => digitsValue 10 0 (c :: cs)

/-- The parts of a list between commas. -/
def splitCommas : List Char → List (List Char)
  | [] => [[]]
  | c :: cs =>
    match c, splitCommas cs with
    | ',', ps => [] :: ps
    | c, p :: ps => (c :: p) :: ps
    | c, [] => [[c]]

/-- Each part as a number, if each is one. -/
def parseNumbers : List (List Char) → Option (List Nat)
  | [] => some []
  | p :: ps =>
    match parseNumber (trimBlanks p), parseNumbers ps with
    | some n, some ns => some (n :: ns)
    | _, _ => none

/-- The A and D fields of an operand list. A number too wide for its field, or one operand too many, assembles to nothing.
DESIGN CHOICE: log 15; safe. -/
def placeOperands (shape : OperandShape) (ns : List Nat) : Option (Word16 × Byte) :=
  match shape, ns with
  | .none, [] => some (0, 0)
  | .a, [] => some (0, 0)
  | .a, [a] => if a < 65536 then some (BitVec.ofNat 16 a, 0) else none
  | .d, [] => some (0, 0)
  | .d, [d] => if d < 256 then some (0, BitVec.ofNat 8 d) else none
  | .aThenD, [] => some (0, 0)
  | .aThenD, [a] => if a < 65536 then some (BitVec.ofNat 16 a, 0) else none
  | .aThenD, [a, d] => if a < 65536 ∧ d < 256 then some (BitVec.ofNat 16 a, BitVec.ofNat 8 d) else none
  | _, _ => none

/-- The command word of one line (R84), `cw 0xOOAAAADD` among the forms; nothing for a line that is not of the syntax. -/
def assembleLine (line : List Char) : Option CmdWord :=
  let body := trimBlanks (line.takeWhile (· ≠ ';'))
  let name := body.takeWhile (fun c => !isBlank c)
  let rest := trimBlanks (body.drop name.length)
  let operands := if rest = [] then some [] else parseNumbers (splitCommas rest)
  match operands with
  | none => none
  | some ns =>
    if name = "cw".toList then
      match ns with
      | [w] => if w < 2 ^ 32 then some (BitVec.ofNat 32 w) else none
      | _ => none
    else
      match asmRows.find? (fun r => r.mnemonic.toList = name) with
      | none => none
      | some r => (placeOperands r.shape ns).map fun f => packWord r.op f.1 f.2

end Sys2Proof.Machine
end

