-- ==== Sys2Proof/Tests/Slice0.lean ====
section
/-! SUPPORT. Tests: ill-formed terms, words written out by hand from 30_encoding.md R74, the vectors of 95_test_vectors.md one step
at a time (named by their id), and a witness for the hypotheses of every statement (named after it). -/

namespace Sys2Proof.Tests

set_option Elab.async false

open Sys2Proof.Machine Sys2Proof.Safety Sys2Proof.Claims

/-! Well-formedness (30_encoding.md R72). -/

theorem test_wellFormed_fbWr : (Instr.fbWr 8 0).wellFormed = false ∧ (Instr.fbWr 0x0100 1).wellFormed = false ∧
    (Instr.fbWr 7 0xFF).wellFormed = true := by decide

theorem test_wellFormed_fbRd : (Instr.fbRd 8).wellFormed = false ∧ (Instr.fbRd 7).wellFormed = true := by decide

theorem test_wellFormed_txWriteBytes : (Instr.txWriteBytes 9).wellFormed = false ∧ (Instr.txWriteBytes 8).wellFormed = true := by
  decide

theorem test_wellFormed_setLen : (Instr.setLen 9).wellFormed = false ∧ (Instr.setLen 8).wellFormed = true := by decide

theorem test_wellFormed_regRd : (Instr.regRd 0x0A).wellFormed = false ∧ (Instr.regRd 0x09).wellFormed = true := by decide

/-! Decoding: a word of each command, written out from R70 and R74; unused fields hold ones where the word has any (R73). -/

theorem test_decode_crc : decode 0x00000000 = .ok .nop ∧ decode 0x10FFFFFF = .ok .crcInit ∧
    decode 0x11FFFF01 = .ok (.crcUpdate 0x01) ∧ decode 0x12FFFFFF = .ok .crcCheckId := by decide

theorem test_decode_frame : decode 0x200005FF = .ok (.fcBuildRead 0x0005) ∧
    decode 0x21BEEF5A = .ok (.fcBuildWrite 0xBEEF 0x5A) ∧ decode 0x22123472 = .ok (.fcValidate 0x72) ∧
    decode 0x23FFFFFF = .ok .fcValidateBus ∧ decode 0x248001FF = .ok (.fcSendRead 0x8001) ∧
    decode 0x250005AB = .ok (.fcSendWrite 0x0005 0xAB) ∧ decode 0x26FFFFCD = .ok (.fcSendWriteNext 0xCD) ∧
    decode 0x27FFFF55 = .ok (.fcReadback 0x55) := by decide

theorem test_decode_transceiver : decode 0x30FFFFFF = .ok .txReset ∧ decode 0x31FFFFFE = .ok (.txWriteBit false) ∧
    decode 0x31000001 = .ok (.txWriteBit true) ∧ decode 0x32FFFFFF = .ok .txReadBit ∧
    decode 0x33FFFFAB = .ok (.txWriteByte 0xAB) ∧ decode 0x34FFFFFF = .ok .txReadByte ∧
    decode 0x35FFFF08 = .ok (.txWriteBytes 8) ∧ decode 0x36FFFFFF = .ok .txSkip ∧ decode 0x37FFFFFF = .ok .txSearch ∧
    decode 0x38FFFFFF = .ok .txResetSearch := by decide

theorem test_decode_host : decode 0x40010001 = .ok (.fbWr 0x0100 0x01) ∧ decode 0x410007FF = .ok (.fbRd 7) ∧
    decode 0x42FFFF03 = .ok (.setLen 3) ∧ decode 0x43FFFF09 = .ok (.regRd 0x09) := by decide

/-- V-ERR-1, V-ENC-10: the ends of the illegal ranges of R75. -/
theorem test_decode_illegal : decode 0x01FFFFFF = .error (.illegalOpcode 0x01) ∧
    decode 0x0F000000 = .error (.illegalOpcode 0x0F) ∧
    decode 0x13000000 = .error (.illegalOpcode 0x13) ∧
    decode 0x1F000000 = .error (.illegalOpcode 0x1F) ∧
    decode 0x28000000 = .error (.illegalOpcode 0x28) ∧
    decode 0x2F000000 = .error (.illegalOpcode 0x2F) ∧
    decode 0x39000000 = .error (.illegalOpcode 0x39) ∧
    decode 0x3F000000 = .error (.illegalOpcode 0x3F) ∧
    decode 0x44000000 = .error (.illegalOpcode 0x44) ∧
    decode 0xFFFFFFFF = .error (.illegalOpcode 0xFF) ∧
    decode 0x99123456 = .error (.illegalOpcode 0x99) := by
  decide +kernel

theorem test_encode : encode (.fcSendWrite 0xFFFF 0x00) = 0x25FFFF00 ∧ encode (.fbWr 7 0x7E) = 0x4000077E ∧
    encode (.regRd 0x09) = 0x43000009 ∧ encode (.txWriteBit true) = 0x31000001 := by decide

theorem test_decodeTableWord : decodeTableWord 32 0x250005AB = some (.fcSendWrite 0x0005 0xAB) ∧
    decodeTableWord 32 0x99000000 = none := by decide

/-! The assembler (R84) and the wire refinement (20_memory.md R54). -/

theorem test_assemble_example : assembleLine "FC_SEND_WRITE 0x0005, 0xAB ; first byte".toList = some 0x250005AB := by
  decide +kernel

theorem test_assemble_word : assembleLine "cw 0x99123456".toList = some 0x99123456 ∧
    assembleLine "FB_WR 7, 126".toList = some 0x4000077E ∧ assembleLine "NOP".toList = some 0x00000000 ∧
    assembleLine "MOV 1".toList = none := by decide +kernel

theorem test_wire_lsb_first : wireSlots [] (.write 0x01) =
    [.writeSlot true, .writeSlot false, .writeSlot false, .writeSlot false, .writeSlot false, .writeSlot false,
      .writeSlot false, .writeSlot false] := by decide +kernel

theorem test_wire_search : (wireSlots [] (.search none)).length = 74 ∧
    ((wireSlots [] (.search none)).drop 2).take 8 =
      [.writeSlot false, .writeSlot false, .writeSlot false, .writeSlot false, .writeSlot true, .writeSlot true,
        .writeSlot true, .writeSlot true] := by decide +kernel

/-! The CRC (00_scope.md R14; section 2.2 of 95_test_vectors.md). -/

/-- V-CRC-2. -/
theorem test_crc_step_table : (List.range 16).map (fun b => crc8Step .dallas 0x00 (BitVec.ofNat 8 b)) =
    [0x00, 0x5E, 0xBC, 0xE2, 0x61, 0x3F, 0xDD, 0x83, 0xC2, 0x9C, 0x7E, 0x20, 0xA3, 0xFD, 0x1F, 0x41] := by decide +kernel

/-- V-CRC-3. -/
theorem test_crc_steps : crc8Step .dallas 0x00 0x80 = 0x8C ∧ crc8Step .dallas 0x00 0xFF = 0x35 ∧
    crc8Step .dallas 0x01 0x00 = 0x5E ∧ crc8Step .dallas 0x8C 0x00 = 0x2F ∧ crc8Step .dallas 0xFF 0xFF = 0x00 := by
  decide +kernel

/-- V-CRC-9, V-CRC-7, V-CRC-12. -/
theorem test_crc_published : crc8 .dallas [0x02, 0x1C, 0xB8, 0x01, 0x00, 0x00, 0x00] = 0xA2 ∧
    crc8 .dallas [0x09, 0xA1, 0xB2, 0xC3, 0xD4, 0xE5, 0xF6] = 0x7E ∧
    crc8 .dallas [0x09, 0x01, 0x02, 0x03, 0x04, 0x05, 0x06] = 0x4C ∧
    crc8 .dallas [0xFF, 0xFF, 0xFF, 0xFF, 0xFF, 0xFF, 0xFF] = 0x14 := by decide +kernel

/-- Section 2.3: the address is low byte first in the frame. -/
theorem test_crc_frames : crc8 .dallas (readFrame 0x0005) = 0x72 ∧ crc8 .dallas (writeFrame 0x0005 0xAB) = 0x20 ∧
    crc8 .dallas (writeFrame 0x0100 0x00) = 0x5E ∧ crc8 .dallas (writeFrame 0xFFFF 0x00) = 0xC9 := by decide +kernel

/-! One step on a small state, under an oracle with fixed answers. -/

/-- An oracle that gives the same answer to every draw of a kind, and stalls at a read where `stuck` says so. -/
def fixed (byte : Byte) (bit : Bool) (r : Option Ident) (stuck : Bool) : Oracle where
  presence := fun _ => bit
  readBit := fun _ => bit
  readByte := fun _ => byte
  search := fun _ => r
  stalls := fun _ op => stuck && decide (op = .read ∨ op = .reset)

/-- An oracle whose every byte is `b`. -/
def byteIs (b : Byte) : Oracle := fixed b true none false

/-- The identifier of scenario 1. -/
def ident1 : Ident := #v[0x09, 0xA1, 0xB2, 0xC3, 0xD4, 0xE5, 0xF6, 0x7E]

/-- The identifier of V-CRC-10. -/
def badIdent : Ident := #v[0x09, 0xA1, 0xB2, 0xC3, 0xD4, 0xE5, 0xF6, 0x7F]

/-- Reset, with an identifier in FB and FLEN 8. -/
def withIdent (i : Ident) : State := { State.reset with fb := i.map some, flen := 8 }

/-- Reset, in write phase `p` at address `a`. -/
def inPhase (p : Wph) (a : Word16) : State := { State.reset with wph := p, waddr := some a }

/-- Reset, with a bus that never stalls. -/
def returning : State := { State.reset with params := { Params.default with busAlwaysReturns := true } }

/-- 44_host_access.md R190, example. -/
theorem test_nop_clears_err : effectOf (byteIs 0) .nop { State.reset with err := 0x01 } =
    { State.reset with err := 0x00, pc := 1, resps := [0x0000] } := by decide +kernel

/-- V-CRC-11. -/
theorem test_crcInit : effectOf (byteIs 0) .crcInit { State.reset with crc := 0x5E } =
    { State.reset with pc := 1, resps := [0x0000] } := by decide +kernel

/-- V-CRC-5, the second update. -/
theorem test_crcUpdate : effectOf (byteIs 0) (.crcUpdate 0xA1) { State.reset with crc := 0x9C } =
    { State.reset with crc := 0x43, pc := 1, resps := [0x0043] } := by decide +kernel

/-- V-CRC-7. -/
theorem test_crcCheckId : effectOf (byteIs 0) .crcCheckId (withIdent ident1) =
    { withIdent ident1 with exp := some 0x7E, obs := some 0x7E, crcOk := true, pc := 1, resps := [0x0001] } := by
  decide +kernel

/-- V-CRC-10. -/
theorem test_crcCheckId_bad : effectOf (byteIs 0) .crcCheckId { withIdent badIdent with wph := .ready, crcOk := true } =
    { withIdent badIdent with
      exp := some 0x7E, obs := some 0x7F, dirty := true, err := 0x01, pc := 1, resps := [0x0100] } := by decide +kernel

/-- V-FC-1. -/
theorem test_fcBuildRead : effectOf (byteIs 0) (.fcBuildRead 0xFFFF) State.reset =
    { State.reset with
      fb := #v[some 0xF0, some 0xFF, some 0xFF, none, none, none, none, none], flen := 3, pc := 1, resps := [0x0003] } := by
  decide +kernel

/-- V-FC-2. -/
theorem test_fcBuildWrite : effectOf (byteIs 0) (.fcBuildWrite 0x0005 0xAB) (inPhase .ready 7) =
    { inPhase .ready 7 with
      fb := #v[some 0x0F, some 0x05, some 0x00, some 0xAB, none, none, none, none], flen := 4, pc := 1,
      resps := [0x0004] } := by decide +kernel

/-- V-FC-3, second command. -/
theorem test_fcValidate_empty : effectOf (byteIs 0) (.fcValidate 0x01) State.reset =
    { State.reset with
      exp := some 0x00, obs := some 0x01, dirty := true, err := 0x01, pc := 1, resps := [0x0100] } := by decide +kernel

/-- V-CRC-8. -/
theorem test_fcValidate_residue : effectOf (byteIs 0) (.fcValidate 0x00) (withIdent ident1) =
    { withIdent ident1 with exp := some 0x00, obs := some 0x00, crcOk := true, pc := 1, resps := [0x0001] } := by
  decide +kernel

/-- The state of V-FC-6. -/
def writeBuilt : State :=
  { State.reset with fb := #v[some 0x0F, some 0x05, some 0x00, some 0xAB, none, none, none, none], flen := 4 }

/-- V-FC-6. -/
theorem test_fcValidateBus : effectOf (byteIs 0x21) .fcValidateBus writeBuilt =
    { writeBuilt with
      trace := [.read 0x21], rxb := some 0x21, exp := some 0x20, obs := some 0x21, dirty := true, err := 0x01, pc := 1,
      resps := [0x0100] } := by decide +kernel

/-- V-FC-5, the last bus command: a matching echo opens no sequence. -/
theorem test_fcValidateBus_match : (effectOf (byteIs 0x20) .fcValidateBus writeBuilt).wph = .idle ∧
    (effectOf (byteIs 0x20) .fcValidateBus writeBuilt).resps = [0x0001] := by decide +kernel

/-- V-FC-11: an open sequence is closed, FB[3] and WADDR are kept. -/
theorem test_fcSendRead : effectOf (byteIs 0x8D) (.fcSendRead 0x0000) { writeBuilt with wph := .awaitRb, waddr := some 5 } =
    { State.reset with
      fb := #v[some 0xF0, some 0x00, some 0x00, some 0xAB, none, none, none, none], flen := 3, waddr := some 5,
      trace := [.write 0xF0, .write 0x00, .write 0x00, .read 0x8D], rxb := some 0x8D, exp := some 0x8D, obs := some 0x8D,
      crcOk := true, pc := 1, resps := [0x0001] } := by decide +kernel

/-- V-FC-14. -/
theorem test_fcSendRead_stall : effectOf (fixed 0 false none true) (.fcSendRead 0x0012) State.reset =
    { State.reset with
      fb := #v[some 0xF0, some 0x12, some 0x00, none, none, none, none, none], flen := 3,
      trace := [.write 0xF0, .write 0x12, .write 0x00], stalled := true } := by decide +kernel

/-- 42_frame_codec.md R125, example. -/
theorem test_fcSendWrite : effectOf (byteIs 0x20) (.fcSendWrite 0x0005 0xAB) State.reset =
    { writeBuilt with
      waddr := some 5, wph := .awaitRb, trace := [.write 0x0F, .write 0x05, .write 0x00, .write 0xAB, .read 0x20],
      rxb := some 0x20, exp := some 0x20, obs := some 0x20, crcOk := true, pc := 1, resps := [0x0001] } := by
  decide +kernel

/-- V-FC-7, first command: WADDR is written although the echo fails. -/
theorem test_fcSendWrite_bad : effectOf (byteIs 0x21) (.fcSendWrite 0x0005 0xAB) State.reset =
    { writeBuilt with
      waddr := some 5, trace := [.write 0x0F, .write 0x05, .write 0x00, .write 0xAB, .read 0x21], rxb := some 0x21,
      exp := some 0x20, obs := some 0x21, dirty := true, err := 0x01, pc := 1, resps := [0x0100] } := by decide +kernel

/-- V-FC-8, third command: the address wraps, only the data byte is sent. -/
theorem test_fcSendWriteNext : effectOf (byteIs 0x9A) (.fcSendWriteNext 0x00) (inPhase .ready 0xFFFF) =
    { inPhase .awaitRb 0x0000 with
      fb := #v[some 0x0F, some 0x00, some 0x00, some 0x00, none, none, none, none], flen := 4,
      trace := [.write 0x00, .read 0x9A], rxb := some 0x9A, exp := some 0x9A, obs := some 0x9A, crcOk := true, pc := 1,
      resps := [0x0001] } := by decide +kernel

/-- P3 under DATA_ONLY: the echo of 0xCD is 0x37. V-FC-10: E_SEQ in AWAIT_RB. -/
theorem test_fcSendWriteNext_scope :
    (effectOf (byteIs 0x37) (.fcSendWriteNext 0xCD)
      { inPhase .ready 5 with params := { Params.default with wrNextScope := .dataOnly } }).resps = [0x0001] ∧
    effectOf (byteIs 0x37) (.fcSendWriteNext 0xCD) (inPhase .awaitRb 5) =
      { inPhase .awaitRb 5 with err := 0x03, pc := 1, resps := [0x0300] } := by decide +kernel

/-- V-FC-12, second command. -/
theorem test_fcReadback_bad : effectOf (byteIs 0x00) (.fcReadback 0x0F) { inPhase .awaitRb 0 with crcOk := true } =
    { inPhase .idle 0 with
      crcOk := true, trace := [.read 0x00], rxb := some 0x00, exp := some 0x0F, obs := some 0x00, dirty := true,
      err := 0x02, pc := 1, resps := [0x0200] } := by decide +kernel

/-- P3, command 3; V-FC-13. -/
theorem test_fcReadback : effectOf (byteIs 0xAB) (.fcReadback 0xAB) (inPhase .awaitRb 5) =
    { inPhase .ready 5 with
      trace := [.read 0xAB], rxb := some 0xAB, exp := some 0xAB, obs := some 0xAB, vfyOk := true, pc := 1,
      resps := [0x0001] } ∧
    effectOf (byteIs 0xAB) (.fcReadback 0xAB) State.reset = { State.reset with err := 0x03, pc := 1, resps := [0x0300] } := by
  decide +kernel

/-- V-TX-2. -/
theorem test_txReset : effectOf (byteIs 0) .txReset { inPhase .awaitRb 5 with dirty := true, sexh := true } =
    { inPhase .idle 5 with pres := true, sexh := true, trace := [.reset true], pc := 1, resps := [0x0001] } := by decide +kernel

/-- V-TX-5. -/
theorem test_txReset_stall : effectOf (fixed 0 false none true) .txReset State.reset = { State.reset with stalled := true } := by
  decide +kernel

/-- V-TX-1. -/
theorem test_txWriteBit : effectOf (byteIs 0) (.txWriteBit false) State.reset =
    { State.reset with trace := [.writeBit false], pc := 1, resps := [0x0000] } := by decide +kernel

/-- V-TX-1: RXB is left alone. -/
theorem test_txReadBit : effectOf (byteIs 0) .txReadBit State.reset =
    { State.reset with trace := [.readBit true], pc := 1, resps := [0x0001] } := by decide +kernel

/-- V-TX-1; 43_transceiver.md R163: WPH is not changed. -/
theorem test_txWriteByte : effectOf (byteIs 0) (.txWriteByte 0xAB) (inPhase .ready 5) =
    { inPhase .ready 5 with trace := [.write 0xAB], pc := 1, resps := [0x0000] } := by decide +kernel

/-- V-TX-1. -/
theorem test_txReadByte : effectOf (byteIs 0x5A) .txReadByte State.reset =
    { State.reset with trace := [.read 0x5A], rxb := some 0x5A, pc := 1, resps := [0x005A] } := by decide +kernel

/-- V-TX-3: eight bytes, FB[0] first. -/
theorem test_txWriteBytes : effectOf (byteIs 0) (.txWriteBytes 8) (withIdent ident1) =
    { withIdent ident1 with
      trace := [.write 0x09, .write 0xA1, .write 0xB2, .write 0xC3, .write 0xD4, .write 0xE5, .write 0xF6, .write 0x7E],
      pc := 1, resps := [0x0008] } := by decide +kernel

/-- V-TX-4. -/
theorem test_txWriteBytes_corners :
    effectOf (byteIs 0) (.txWriteBytes 9) State.reset = { State.reset with err := 0x04, pc := 1, resps := [0x0400] } ∧
    effectOf (byteIs 0) (.txWriteBytes 0) State.reset = { State.reset with pc := 1, resps := [0x0000] } ∧
    effectOf (byteIs 0) (.txWriteBytes 1) State.reset = { State.reset with faulted := some (.unwritten, 0) } := by decide +kernel

/-- V-TX-6. -/
theorem test_txSkip : effectOf (byteIs 0) .txSkip State.reset =
    { State.reset with trace := [.write 0xCC], pc := 1, resps := [0x0000] } := by decide +kernel

/-- V-TX-3, first search. -/
theorem test_txSearch : effectOf (fixed 0 true (some ident1) false) .txSearch { inPhase .ready 5 with sexh := true } =
    { withIdent ident1 with
      waddr := some 5, found := true, trace := [.search (some ident1)], pc := 1, resps := [0x0001] } := by decide +kernel

/-- V-TX-3, second search. -/
theorem test_txSearch_none : effectOf (byteIs 0) .txSearch { withIdent ident1 with found := true } =
    { withIdent ident1 with sexh := true, trace := [.search none], pc := 1, resps := [0x0000] } := by decide +kernel

/-- 43_transceiver.md R168, example; FOUND is left. -/
theorem test_txResetSearch : effectOf (fixed 0 false none true) .txResetSearch { State.reset with sexh := true, found := true } =
    { State.reset with found := true, trace := [.searchReset], pc := 1, resps := [0x0000] } := by decide +kernel

/-- V-HA-1. -/
theorem test_fbWr : effectOf (byteIs 0) (.fbWr 7 0x7E) State.reset =
    { State.reset with fb := #v[none, none, none, none, none, none, none, some 0x7E], pc := 1, resps := [0x0000] } ∧
    effectOf (byteIs 0) (.fbWr 0x0100 0x01) State.reset =
      { State.reset with err := 0x04, pc := 1, resps := [0x0400] } := by decide +kernel

/-- V-HA-4, V-ERR-3 and R192's example. -/
theorem test_fbRd : effectOf (byteIs 0) (.fbRd 0) State.reset = { State.reset with faulted := some (.unwritten, 0) } ∧
    effectOf (byteIs 0) (.fbRd 8) State.reset = { State.reset with err := 0x04, pc := 1, resps := [0x0400] } ∧
    (effectOf (byteIs 0) (.fbRd 7) (withIdent ident1)).resps = [0x007E] := by decide +kernel

/-- V-HA-1, V-HA-5. -/
theorem test_setLen : effectOf (byteIs 0) (.setLen 9) State.reset =
      { State.reset with err := 0x04, pc := 1, resps := [0x0400] } ∧
    effectOf (byteIs 0) (.setLen 3) State.reset = { State.reset with flen := 3, pc := 1, resps := [0x0003] } := by decide +kernel

/-- P3, commands 6 and 7: STATUS 0x1D, WPH 0x02. -/
theorem test_regRd :
    let s : State := { inPhase .ready 6 with pres := true, crcOk := true, vfyOk := true }
    (effectOf (byteIs 0) (.regRd 0x00) s).resps = [0x001D] ∧ (effectOf (byteIs 0) (.regRd 0x09) s).resps = [0x0002] ∧
      (effectOf (byteIs 0) (.regRd 0x06) s).resps = [0x0006] := by decide +kernel

/-- V-HA-2, V-HA-3. -/
theorem test_regRd_corners :
    effectOf (byteIs 0) (.regRd 0x01) { State.reset with err := 0x05 } = { State.reset with pc := 1, resps := [0x0005] } ∧
    effectOf (byteIs 0) (.regRd 0x0A) State.reset = { State.reset with err := 0x04, pc := 1, resps := [0x0400] } ∧
    effectOf (byteIs 0) (.regRd 0x03) State.reset = { State.reset with faulted := some (.unwritten, 0) } := by decide +kernel

/-! Steps. -/

/-- V-HA-1: the first command after reset; and a word placed behind others. -/
theorem test_step_first : step (State.reset.withFetchWord 32 0x4000077E) =
    .next { State.reset.withFetchWord 32 0x4000077E with
      fb := #v[none, none, none, none, none, none, none, some 0x7E], pc := 1, resps := [0x0000] } ∧
    ({ State.reset with pc := 2 }.withFetchWord 32 0x42000003).stream = [0, 0, 0x42000003] := ⟨rfl, rfl⟩

/-- V-HA-3: an illegal word finishes with E_ILLEGAL. -/
theorem test_step_illegal : step (State.reset.withFetchWord 32 0x99000000) =
    .next { State.reset.withFetchWord 32 0x99000000 with err := 0x05, pc := 1, resps := [0x0500] } := rfl

/-- V-CRC-13: the fault is recorded, and no step follows. -/
theorem test_step_fault : step (State.reset.withFetchWord 32 0x12000000) =
      .next { State.reset.withFetchWord 32 0x12000000 with faulted := some (.unwritten, 0) } ∧
    step { State.reset.withFetchWord 32 0x12000000 with faulted := some (.unwritten, 0) } =
      .fault (.faulted .unwritten 0) := ⟨rfl, rfl⟩

/-- 60_exceptions.md R217 and 70_reset_and_hazards.md R251. -/
theorem test_step_stuck : step { State.reset.withFetchWord 32 0 with stalled := true } = .fault .busStalled ∧
    step State.reset = .refused .noCommand := ⟨rfl, rfl⟩

/-! Witnesses: for each statement with hypotheses, a state and operands that meet all the hypotheses of each clause together. -/

/-- The state a command ends in. -/
def after (i : Instr) (s : State) : State := effectOf Config.oracle i s

theorem exec_after (i : Instr) (s : State) : exec i s = .next (after i s) := exec_eq_next i s

/-- Reset, with a stream of one word. -/
def withWord (w : CmdWord) : State := { State.reset with stream := [w] }

/-- Every data register written. -/
def allHeld : State :=
  { withIdent ident1 with rxb := some 1, exp := some 2, obs := some 3, waddr := some 0xFFFF }

/-- A returning bus in a write phase. -/
def returningIn (p : Wph) : State := { returning with wph := p, waddr := some 0xFFFF }

/-- A returning bus and a CRC-8 that gives `x` for every list of bytes but the empty one: reflected, polynomial 0. -/
def constantCrc (x : Byte) : State :=
  { returning with params := { returning.params with crc8 := { poly := 0#8, init := 0#8, reflect := true, xorout := x } } }

theorem lsbFirst_zero (k : Nat) (c b : Byte) : lsbFirst 0#8 k c b = c >>> k := by
  induction k generalizing c b with
  | zero => simp [lsbFirst]
  | succ k ih => rw [lsbFirst]; simp [ih, Nat.add_comm k 1, BitVec.shiftRight_add]

theorem shiftRight_eight : ∀ c : Byte, c >>> 8 = 0#8 := by decide

theorem constantCrc_crc8 (x : Byte) (bs : List Byte) (b : Byte) : crc8 (constantCrc x).params.crc8 (bs ++ [b]) = x := by
  simp [crc8, crc8Step, constantCrc, lsbFirst_zero 8, shiftRight_eight]

theorem witness_FbWrWritesOneByteOrRefuses :
    ((7 : Word16).toNat < 8 ∧ (0 : Word16).toNat < 8) ∧ (8 ≤ (8 : Word16).toNat ∧ 8 ≤ (0x0100 : Word16).toNat) ∧
    ∃ t, (inPhase .ready 0xFFFF).wph = .ready ∧ (inPhase .ready 0xFFFF).waddr = some 0xFFFF ∧
      exec (.fcSendWriteNext 1) { inPhase .ready 0xFFFF with fb := ident1.map some } = .next t :=
  ⟨by decide, by decide, _, rfl, rfl, exec_after _ _⟩

theorem witness_FbRdReadsOneByteOrStops :
    (withIdent ident1).fb.toList[(7 : Word16).toNat]? = some (some 0x7E) ∧
    State.reset.fb.toList[(7 : Word16).toNat]? = some none ∧ State.reset.fb.toList[(0 : Word16).toNat]? = some none ∧
    8 ≤ (8 : Word16).toNat := by decide +kernel

theorem witness_SetLenSetsTheFrameLengthOrRefuses :
    ((8 : Byte).toNat < 9 ∧ (0 : Byte).toNat < 9) ∧ (8 < (9 : Byte).toNat ∧ 8 < (0xFF : Byte).toNat) ∧
    none ∈ ({ State.reset with flen := 1 } : State).fb.toList.take ({ State.reset with flen := 1 } : State).flen.val := by
  decide

theorem witness_RegRdReturnsTheSelectedRegister :
    allHeld.exp = some 2 ∧ allHeld.obs = some 3 ∧ allHeld.rxb = some 1 ∧ allHeld.waddr = some 0xFFFF ∧
    State.reset.exp = none ∧ State.reset.obs = none ∧ State.reset.rxb = none ∧ State.reset.waddr = none ∧
    0x09 < (0x0A : Byte).toNat := by decide

theorem witness_CrcCheckIdComparesSevenBytesWithTheEighth :
    (withIdent badIdent).fb = badIdent.map some ∧ none ∈ ({ withIdent ident1 with fb := (ident1.map some).set 7 none } : State).fb.toList := by
  decide +kernel

theorem witness_ValidateComparesTheFrameCrc :
    holds State.reset State.reset.flen.val [] ∧
    holds (withIdent ident1) (withIdent ident1).flen.val ident1.toList ∧
    none ∈ ({ writeBuilt with flen := 5 } : State).fb.toList.take ({ writeBuilt with flen := 5 } : State).flen.val := by
  unfold holds
  decide +kernel

theorem witness_ValidateBusComparesTheByteRead :
    holds returning returning.flen.val [] ∧ returning.params.busAlwaysReturns = true ∧
    holds writeBuilt writeBuilt.flen.val [0x0F, 0x05, 0x00, 0xAB] ∧
    none ∈ ({ writeBuilt with flen := 8 } : State).fb.toList.take ({ writeBuilt with flen := 8 } : State).flen.val := by
  unfold holds
  decide +kernel

theorem witness_SendReadTransmitsAndChecksTheEcho : returning.params.busAlwaysReturns = true := rfl

theorem witness_SendWriteTransmitsAndOpensTheSequence : (returningIn .ready).params.busAlwaysReturns = true := rfl

theorem witness_SendWriteNextContinuesTheSequence :
    State.reset.wph ≠ .ready ∧ (inPhase .awaitRb 5).wph ≠ .ready ∧ (returningIn .ready).wph = .ready ∧
    (returningIn .ready).waddr = some 0xFFFF ∧ (returningIn .ready).params.busAlwaysReturns = true := by decide

theorem witness_ReadbackComparesWithTheRequestedByte :
    State.reset.wph ≠ .awaitRb ∧ (inPhase .ready 5).wph ≠ .awaitRb ∧ (returningIn .awaitRb).wph = .awaitRb ∧
    (returningIn .awaitRb).params.busAlwaysReturns = true := by decide

theorem witness_WritePhaseFollowsItsTable :
    (exec .nop State.reset = .next (after .nop State.reset) ∧ (after .nop State.reset).pc = State.reset.pc + 1) ∧
    (exec .crcCheckId State.reset = .next (after .crcCheckId State.reset) ∧
      (after .crcCheckId State.reset).pc = State.reset.pc) ∧
    ((withWord 0x99000000).stream[(withWord 0x99000000).pc]? = some 0x99000000 ∧
      decode 0x99000000 = .error (.illegalOpcode 0x99) ∧ ∃ t, step (withWord 0x99000000) = .next t) :=
  ⟨⟨rfl, rfl⟩, ⟨exec_after _ _, rfl⟩, rfl, rfl, _, rfl⟩

/-- A send command on a returning bus finishes. -/
theorem sendRead_finishes {a : Word16} {s t : State} (h : Ends (.fcSendRead a) s t)
    (hb : s.params.busAlwaysReturns = true) : t.pc = s.pc + 1 := by
  cases h <;> simp_all

theorem sendWriteNext_finishes {d : Byte} {s t : State} (h : Ends (.fcSendWriteNext d) s t)
    (hb : s.params.busAlwaysReturns = true) (hw : s.waddr ≠ none) : t.pc = s.pc + 1 := by
  cases h <;> simp_all

theorem witness_EchoIsReadRightAfterTheBytesItCovers :
    (exec (.fcSendRead 5) returning = .next (after (.fcSendRead 5) returning) ∧
      (after (.fcSendRead 5) returning).pc = returning.pc + 1) ∧
    (let s : State := { returningIn .ready with params := { returning.params with wrNextScope := .dataOnly } }
     exec (.fcSendWriteNext 7) s = .next (after (.fcSendWriteNext 7) s) ∧ (after (.fcSendWriteNext 7) s).pc = s.pc + 1 ∧
      s.wph = .ready ∧ s.waddr = some 0xFFFF ∧ s.params.wrNextScope = .dataOnly) :=
  ⟨⟨exec_after _ _, sendRead_finishes (effectOf_ends _ _ _) rfl⟩, exec_after _ _, sendWriteNext_finishes (effectOf_ends _ _ _) rfl (by decide), rfl, rfl, rfl⟩

theorem witness_ClosedSequenceSendsNothingMore :
    (∀ i ∈ [Instr.nop, Instr.fbWr 7 1], isSendWrite i = false) ∧ State.reset.wph = .idle ∧
    ∃ t, execAll [.nop, .fbWr 7 1] State.reset = .next t := ⟨by decide, rfl, _, rfl⟩

/-- The byte the oracle gives after the write frame of byte 0 at address 0. -/
def echo0 : Byte := Config.oracle.readByte [.write 0x0F, .write 0x00, .write 0x00, .write 0x00]

/-- FC_SEND_WRITE 0, 0 from reset, on a returning bus under a CRC-8 that is always `x`. -/
theorem after_sendWrite (x : Byte) (ws : List CmdWord) :
    after (.fcSendWrite 0 0) { constantCrc x with stream := ws } = writeEchoCheck x echo0
      { putWriteFrame 0 0 { constantCrc x with stream := ws } with
        waddr := some 0, wph := .idle, trace := [.write 0x0F, .write 0x00, .write 0x00, .write 0x00, .read echo0],
        rxb := some echo0 } := by
  have hc : crc8 (constantCrc x).params.crc8 (writeFrame 0 0) = x := constantCrc_crc8 x [0x0F, 0x00, 0x00] 0x00
  simp only [after, effectOf, sendWrite]
  rw [busWrites_of_returns _ rfl, busRead_of_returns rfl]
  have := congrArg (fun c => writeEchoCheck c echo0
      { putWriteFrame 0 0 { constantCrc x with stream := ws } with
        waddr := some 0, wph := .idle, trace := [.write 0x0F, .write 0x00, .write 0x00, .write 0x00, .read echo0],
        rxb := some echo0 }) hc
  exact this

theorem witness_WriteBatchStopsAtTheFirstFailure :
    ∃ t, [(0 : Byte)] ≠ [] ∧ Running (constantCrc (echo0 + 1)) ∧
      runHost (writeBatch 0 [0]) (constantCrc (echo0 + 1)) = .next t ∧ Running t ∧ t.err ≠ 0x00 := by
  have hne : echo0 + 1 ≠ echo0 := by
    intro h
    have := congrArg BitVec.toNat h
    simp at this
    omega
  have hi : issue (.fcSendWrite 0 0) (constantCrc (echo0 + 1)) =
      .next (after (.fcSendWrite 0 0) { constantCrc (echo0 + 1) with stream := [0x25000000] }) := rfl
  rw [after_sendWrite] at hi
  simp only [writeEchoCheck, if_neg hne, crcCheck] at hi
  have hr : runHost (writeBatch 0 [0]) (constantCrc (echo0 + 1)) = issue (.fcSendWrite 0 0) (constantCrc (echo0 + 1)) := by
    simp only [writeBatch, writeFirst, List.flatMap_nil, List.append_nil, runHost]
    rw [hi]
    rfl
  rw [hi] at hr
  exact ⟨_, by simp, ⟨rfl, rfl⟩, hr, ⟨rfl, rfl⟩, by decide⟩

theorem witness_OpenWritePhaseHasAWriteAddress :
    (let s : State := { inPhase .awaitRb 5 with stream := [0] }
     (s.wph ≠ .idle → s.waddr ≠ none) ∧ step s = .next (after .nop s) ∧ (after .nop s).wph ≠ .idle) ∧
    (let s := constantCrc echo0
     exec (.fcSendWrite 0 0) s = .next (after (.fcSendWrite 0 0) s) ∧ s.wph = .idle ∧
      (after (.fcSendWrite 0 0) s).wph ≠ .idle) ∧
    (let s := inPhase .ready 0xFFFF
     (s.wph ≠ .idle → s.waddr ≠ none) ∧ exec (.fcSendWriteNext 1) s = .next (after (.fcSendWriteNext 1) s)) := by
  refine ⟨⟨by decide, rfl, by decide⟩, ⟨exec_after _ _, rfl, ?_⟩, by decide, exec_after _ _⟩
  show (after (.fcSendWrite 0 0) { constantCrc echo0 with stream := [] }).wph ≠ .idle
  rw [after_sendWrite]
  simp [writeEchoCheck, crcCheck]

theorem witness_TxResetReportsPresence :
    let s : State := { returning with dirty := true }
    s.params.busAlwaysReturns = true ∧ exec .txReset s = .next (after .txReset s) ∧ s.dirty = true ∧
      (after .txReset s).dirty = false := ⟨rfl, rfl, rfl, rfl⟩

theorem witness_TransceiverCommandsOnAReturningBus : returning.params.busAlwaysReturns = true ∧
    ({ returning with params := { returning.params with skipRom := 0xCC } } : State).params.skipRom = 0xCC := by decide

theorem witness_TxWriteBytesWritesTheBufferPrefix :
    8 < (9 : Byte).toNat ∧ ((1 : Byte).toNat ≤ 8 ∧ none ∈ State.reset.fb.toList.take (1 : Byte).toNat) ∧
    ((0 : Byte).toNat ≤ 8 ∧ holds returning (0 : Byte).toNat []) ∧
    ((8 : Byte).toNat ≤ 8 ∧ holds { returning with fb := ident1.map some } (8 : Byte).toNat ident1.toList ∧
      returning.params.busAlwaysReturns = true) := by
  unfold holds
  decide +kernel

theorem witness_IllegalOpcodesFinishWithEIllegal :
    Running (withWord 0x01FFFFFF) ∧ (withWord 0x01FFFFFF).stream[(withWord 0x01FFFFFF).pc]? = some 0x01FFFFFF ∧
    illegalOp ((0x01FFFFFF : CmdWord) >>> 24).toNat = true ∧ illegalOp ((0xFFFFFFFF : CmdWord) >>> 24).toNat = true :=
  ⟨⟨rfl, rfl⟩, rfl, by decide, by decide⟩

theorem witness_StepRunsTheDecodedInstruction :
    Running (withWord 0x4000077E) ∧ (withWord 0x4000077E).stream[(withWord 0x4000077E).pc]? = some 0x4000077E ∧
    decode 0x4000077E = .ok (.fbWr 7 0x7E) := ⟨⟨rfl, rfl⟩, rfl, rfl⟩

theorem witness_HaltedAndEndedRunsHaveNoStep :
    ({ State.reset with faulted := some (.unwritten, 3) } : State).faulted = some (.unwritten, 3) ∧
    (({ State.reset with stalled := true } : State).faulted = none ∧ ({ State.reset with stalled := true } : State).stalled = true) ∧
    Ended State.reset ∧ Ended { State.reset with stream := [0], pc := 1 } :=
  ⟨rfl, ⟨rfl, rfl⟩, ⟨rfl, rfl, rfl⟩, rfl, rfl, rfl⟩

theorem witness_PcAdvancesByOneWhenACommandFinishes :
    (∃ t, step (withWord 0x00000000) = .next t ∧ t.pc = 1) ∧ ∃ t, step (withWord 0x12000000) = .next t ∧ t.pc = 0 :=
  ⟨⟨_, rfl, rfl⟩, _, rfl, rfl⟩

theorem witness_OnlyCrcCommandsWriteTheAccumulator :
    (exec .nop State.reset = .next (after .nop State.reset) ∧ Instr.nop ≠ .crcInit ∧ ∀ d, Instr.nop ≠ .crcUpdate d) ∧
    ((withWord 0x99000000).stream[(withWord 0x99000000).pc]? = some 0x99000000 ∧
      decode 0x99000000 = .error (.illegalOpcode 0x99) ∧ ∃ t, step (withWord 0x99000000) = .next t) :=
  ⟨⟨rfl, by decide, fun _ h => nomatch h⟩, rfl, rfl, _, rfl⟩

theorem witness_RegistersAreLeftByAllButTheirWriters :
    (exec .nop State.reset = .next (after .nop State.reset) ∧ writesFb .nop = false ∧ writesFlen .nop = false ∧
      Instr.nop ≠ .crcInit ∧ (∀ d, Instr.nop ≠ .crcUpdate d) ∧ readsByte .nop = false ∧ crcChecker .nop = false ∧
      isReadback .nop = false ∧ sendsWrite .nop = false ∧ writesWph .nop = false ∧ Instr.nop ≠ .txReset ∧
      Instr.nop ≠ .txSearch ∧ Instr.nop ≠ .txResetSearch ∧ offBus .nop = true ∧ mayFault .nop = false) ∧
    exec .crcCheckId State.reset = .next (after .crcCheckId State.reset) ∧
      (after .crcCheckId State.reset).pc ≠ State.reset.pc + 1 :=
  ⟨⟨rfl, rfl, rfl, by decide, (fun _ h => nomatch h), rfl, rfl, rfl, rfl, rfl, by decide, by decide, by decide, rfl, rfl⟩,
    rfl, by decide⟩

theorem witness_DirtyIsAReportOnly :
    (exec (.fcValidate 1) State.reset = .next (after (.fcValidate 1) State.reset) ∧
      (after (.fcValidate 1) State.reset).pc = State.reset.pc + 1 ∧ (after (.fcValidate 1) State.reset).err = 0x01 ∧
      State.reset.dirty = false ∧ (after (.fcValidate 1) State.reset).dirty = true) ∧
    (let s : State := { returning with dirty := true }
     exec .txReset s = .next (after .txReset s) ∧ s.dirty = true ∧ (after .txReset s).dirty = false) ∧
    (Instr.regRd 0x09 ≠ .regRd 0x00 ∧ exec (.regRd 0x09) State.reset = .next (after (.regRd 0x09) State.reset)) :=
  ⟨⟨rfl, rfl, rfl, rfl, rfl⟩, ⟨rfl, rfl, rfl⟩, by decide, rfl⟩

/-- FC_READBACK of a byte the oracle does not give. -/
theorem after_readback_bad :
    (after (.fcReadback (Config.oracle.readByte [] + 1)) (returningIn .awaitRb)).err = 0x02 ∧
    (after (.fcReadback (Config.oracle.readByte [] + 1)) (returningIn .awaitRb)).pc = 1 := by
  have hne : Config.oracle.readByte [] ≠ Config.oracle.readByte [] + 1 := by
    intro h
    have := congrArg BitVec.toNat h
    simp at this
    omega
  show (readback Config.oracle _ _).err = _ ∧ (readback Config.oracle _ _).pc = 1
  unfold readback
  rw [if_pos (show (returningIn .awaitRb).wph = .awaitRb from rfl), busRead_of_returns rfl]
  show (readbackCheck _ (Config.oracle.readByte []) _).err = _ ∧ (readbackCheck _ (Config.oracle.readByte []) _).pc = 1
  unfold readbackCheck
  rw [if_neg hne]
  exact ⟨rfl, rfl⟩

theorem witness_ErrorCodesHaveTheirCauses :
    (exec (.fcValidate 1) State.reset = .next (after (.fcValidate 1) State.reset) ∧
      (after (.fcValidate 1) State.reset).pc = State.reset.pc + 1 ∧ (after (.fcValidate 1) State.reset).err = 0x01) ∧
    (let i := Instr.fcReadback (Config.oracle.readByte [] + 1)
     exec i (returningIn .awaitRb) = .next (after i (returningIn .awaitRb)) ∧
      (after i (returningIn .awaitRb)).pc = (returningIn .awaitRb).pc + 1 ∧
      (after i (returningIn .awaitRb)).err = 0x02) ∧
    ((withWord 0x99000000).stream[(withWord 0x99000000).pc]? = some 0x99000000 ∧
      decode 0x99000000 = .error (.illegalOpcode 0x99) ∧ ∃ t, step (withWord 0x99000000) = .next t) :=
  ⟨⟨rfl, rfl, rfl⟩, ⟨exec_after _ _, after_readback_bad.2, after_readback_bad.1⟩, rfl, rfl, _, rfl⟩

theorem witness_RefusedCommandsHaveNoOtherEffect :
    (exec (.fcReadback 0) State.reset = .next (after (.fcReadback 0) State.reset) ∧
      (after (.fcReadback 0) State.reset).pc = State.reset.pc + 1 ∧ (after (.fcReadback 0) State.reset).err = 0x03) ∧
    (exec (.fbRd 8) State.reset = .next (after (.fbRd 8) State.reset) ∧
      (after (.fbRd 8) State.reset).pc = State.reset.pc + 1 ∧ (after (.fbRd 8) State.reset).err = 0x04) ∧
    ((withWord 0x99000000).stream[(withWord 0x99000000).pc]? = some 0x99000000 ∧
      decode 0x99000000 = .error (.illegalOpcode 0x99) ∧ ∃ t, step (withWord 0x99000000) = .next t) :=
  ⟨⟨rfl, rfl, rfl⟩, ⟨rfl, rfl, rfl⟩, rfl, rfl, _, rfl⟩

theorem witness_UnwrittenFaultIsPrecise :
    RegistersOk (withWord 0x12000000) ∧ step (withWord 0x12000000) = .next (after .crcCheckId (withWord 0x12000000)) ∧
    (withWord 0x12000000).stream[(withWord 0x12000000).pc]? = some 0x12000000 ∧ decode 0x12000000 = .ok .crcCheckId ∧
    (after .crcCheckId (withWord 0x12000000)).faulted ≠ none := by
  refine ⟨?_, rfl, rfl, rfl, by decide⟩
  unfold RegistersOk
  decide

theorem witness_StallKeepsWhatTheCommandDidBefore :
    (Running State.reset ∧ exec .nop State.reset = .next (after .nop State.reset)) ∧
    (0 < 4 ∧ State.reset.params.busAlwaysReturns = false ∧
      ({ fixed 0 true none false with stalls := fun _ _ => true } : Oracle).stalls [] (.write 0xF0) = true) ∧
    (3 < 4 ∧ (∀ j, j < 3 → (fixed 0 true none true).stalls (([0xF0, 5, 0].take j).map .write)
        (match ([0xF0, 5, 0] : List Byte)[j]? with | some b => .write b | none => .read) = false) ∧
      (fixed 0 true none true).stalls [.write 0xF0, .write 5, .write 0] .read = true) := by
  refine ⟨⟨⟨rfl, rfl⟩, rfl⟩, ⟨by decide, rfl, rfl⟩, by decide, ?_, rfl⟩
  decide

theorem witness_StepKeepsItsInvariants :
    RegistersOk (withWord 0) ∧ AgreesWithTrace (withWord 0) ∧ step (withWord 0) = .next (after .nop (withWord 0)) := by
  refine ⟨?_, ⟨rfl, rfl, rfl, rfl⟩, rfl⟩
  unfold RegistersOk
  decide

theorem witness_StepKeepsItsInvariants_open :
    RegistersOk { inPhase .ready 5 with exp := some 1, obs := some 1, rxb := some 1, trace := [.read 1], stream := [0] } ∧
    AgreesWithTrace { inPhase .ready 5 with exp := some 1, obs := some 1, rxb := some 1, trace := [.read 1], stream := [0] } := by
  refine ⟨?_, rfl, rfl, rfl, rfl⟩
  unfold RegistersOk
  decide

theorem witness_StepClaims : ∃ t, step (withWord 0x30000000) = .next t := ⟨_, rfl⟩

theorem witness_CrcOfSequenceComputesTheCrc : Running State.reset := ⟨rfl, rfl⟩

end Sys2Proof.Tests
end

section
/-! PROOF. The CRC-8 step of a reflected algorithm as the loop of R14 (00_scope.md): the recursion of `lsbFirst`, which
shifts `b` along, is the left fold that reads bit `k` of `b` in round `k`. -/

namespace Sys2Proof.Proofs
open Sys2Proof Sys2Proof.Machine

/-- Round `k` of R14's loop: bit `k` of `b` against the lowest bit of the CRC. -/
def reflectedRound (poly b c : Byte) (k : Nat) : Byte :=
  if (c.getLsbD 0 ^^ b.getLsbD k) = true then (c >>> 1) ^^^ poly else c >>> 1

theorem xor_and_one_eq_one_iff (c b : Byte) :
    (c ^^^ b) &&& 1#8 = 1#8 ↔ (c.getLsbD 0 ^^ b.getLsbD 0) = true := by
  rw [BitVec.and_one_eq_setWidth_ofBool_getLsbD, BitVec.getLsbD_xor]
  cases c.getLsbD 0 ^^ b.getLsbD 0 <;> decide

/-- Shifting `b` right once renumbers the rounds. -/
theorem reflectedRound_shiftRight_one (poly b : Byte) :
    reflectedRound poly (b >>> 1) = fun c k => reflectedRound poly b c (k + 1) := by
  funext c k
  simp only [reflectedRound, BitVec.getLsbD_ushiftRight, Nat.add_comm 1 k]

theorem lsbFirst_succ (poly : Byte) (k : Nat) (c b : Byte) :
    lsbFirst poly (k + 1) c b = lsbFirst poly k (reflectedRound poly b c 0) (b >>> 1) := by
  simp only [lsbFirst, reflectedRound, xor_and_one_eq_one_iff]

theorem lsbFirst_eq_foldl_reflectedRound (poly : Byte) (k : Nat) (c b : Byte) :
    lsbFirst poly k c b = (List.range k).foldl (reflectedRound poly b) c := by
  induction k generalizing c b with
  | zero => rfl
  | succ k ih =>
    rw [lsbFirst_succ, ih, List.range_succ_eq_map, List.foldl_cons, List.foldl_map, reflectedRound_shiftRight_one]

/-- DALLAS is reflected and its final XOR is 0x00, so the step is the bare eight bits. -/
theorem crc8Step_dallas (c b : Byte) : crc8Step Crc8Algo.dallas c b = lsbFirst 0x8C 8 c b := by
  simp [crc8Step, Crc8Algo.dallas]

@[simp] theorem crc8Init_dallas : crc8Init Crc8Algo.dallas = 0x00 := rfl

/-- Settles O10, by induction on the number of bits left in the step. -/
theorem dallasStepIsTheReflectedShift : Obligations.DallasStepIsTheReflectedShift := by
  unfold Obligations.DallasStepIsTheReflectedShift
  refine ⟨fun c b => ?_, fun bs => ?_⟩
  · rw [crc8Step_dallas]
    exact lsbFirst_eq_foldl_reflectedRound 0x8C 8 c b
  · rw [crc8, crc8Init_dallas]

end Sys2Proof.Proofs
end

section
/-! PROOF. The accumulator CRC (10_state.md R23): every way a command can end leaves it, but the ends of CRC_INIT and CRC_UPDATE. -/

namespace Sys2Proof.Proofs
open Sys2Proof Sys2Proof.Machine

/-- An illegal word that runs finishes with E_ILLEGAL and has no other effect (30_encoding.md R75). -/
theorem eq_finish_of_step_of_decode_error {s t : State} {w : CmdWord} {e : DecodeError}
    (hw : s.stream[s.pc]? = some w) (hd : decode w = .error e) (h : step s = .next t) :
    t = finish .eIllegal 0x00 s := by
  obtain ⟨-, w', hw', ⟨i, hi, -⟩ | ⟨-, -, ht⟩⟩ := step_cases h
  · obtain rfl : w = w' := Option.some.inj (hw.symm.trans hw')
    cases hd.symm.trans hi
  · exact ht

theorem crc_eq_of_ends {i : Instr} {s t : State} (h : Ends i s t) (hinit : i ≠ .crcInit)
    (hupdate : ∀ d, i ≠ .crcUpdate d) : t.crc = s.crc := by
  cases h with
  | crcInit => exact absurd rfl hinit
  | crcUpdate s d => exact absurd rfl (hupdate d)
  | _ => rfl

/-- Settles O40, by the cases of how a command can end. -/
theorem onlyCrcCommandsWriteTheAccumulator : Obligations.OnlyCrcCommandsWriteTheAccumulator := by
  unfold Obligations.OnlyCrcCommandsWriteTheAccumulator
  refine ⟨fun i s t h => crc_eq_of_ends (ends_of_exec h), fun s t w e hw hd h => ?_, rfl, crc8Init_dallas⟩
  rw [eq_finish_of_step_of_decode_error hw hd h, finish_crc]

end Sys2Proof.Proofs
end

section
/-! PROOF. DIRTY (10_state.md R36): what a command does to it, and that no command but the STATUS read looks at it. The latter
is a congruence: each operation of the machine takes states equal but for DIRTY to states equal but for DIRTY. -/

namespace Sys2Proof.Proofs
open Sys2Proof Sys2Proof.Machine

/-- DIRTY after a command: TX_RESET clears it, a mismatch sets it, and every other end leaves it. -/
theorem dirty_cases_of_ends {i : Instr} {s t : State} (h : Ends i s t) :
    (i = .txReset ∧ t.dirty = false ∧ t.err = 0x00) ∨
    (t.dirty = true ∧ (t.err = 0x01 ∨ t.err = 0x02)) ∨
    (t.dirty = s.dirty ∧ (t.pc = s.pc + 1 → t.err ≠ 0x01 ∧ t.err ≠ 0x02)) := by
  cases h with
  | txReset => exact .inl ⟨rfl, rfl, rfl⟩
  | checkIdMismatch | validateMismatch | validateBusMismatch | sendReadMismatch | sendWriteMismatch
  | sendWriteNextMismatch => exact .inr (.inl ⟨rfl, .inl rfl⟩)
  | readbackMismatch => exact .inr (.inl ⟨rfl, .inr rfl⟩)
  | _ =>
    -- The command finishes with another code, or does not finish and leaves pc.
    exact .inr (.inr ⟨rfl, by simp [errByte]⟩)

/-- `t'` is `t`, DIRTY apart. -/
def EqButDirty (t t' : State) : Prop := ∃ b, t' = { t with dirty := b }

section
variable {α : Type} {o : Oracle} {s s' : State}

theorem EqButDirty.raiseUnwritten_congr (h : EqButDirty s s') : EqButDirty (raiseUnwritten s) (raiseUnwritten s') := by
  obtain ⟨b, rfl⟩ := h
  exact ⟨b, rfl⟩

theorem EqButDirty.markStalled_congr (h : EqButDirty s s') : EqButDirty (markStalled s) (markStalled s') := by
  obtain ⟨b, rfl⟩ := h
  exact ⟨b, rfl⟩

theorem EqButDirty.readVal_congr {r : Option α} {k k' : α → State} (h : EqButDirty s s')
    (hk : ∀ v, EqButDirty (k v) (k' v)) : EqButDirty (readVal r s k) (readVal r s' k') := by
  cases r with
  | none => exact h.raiseUnwritten_congr
  | some v => exact hk v

/-! The bus: a draw and a stall depend on the trace and the parameters only. The rest of a command is asked about two states
written as `t` and an update of `t`, so that what it reads of them, DIRTY apart, is equal by computation. -/

theorem EqButDirty.busDo_congr {op : BusOp} {k k' : State → State} (h : EqButDirty s s') (hk : EqButDirty (k s) (k' s')) :
    EqButDirty (busDo o op s k) (busDo o op s' k') := by
  have hstall : busStalls o op s' = busStalls o op s := by
    obtain ⟨b, rfl⟩ := h
    rfl
  unfold busDo
  rw [hstall]
  split
  · exact h.markStalled_congr
  · exact hk

theorem EqButDirty.busWrite_congr {v : Byte} {k k' : State → State} (h : EqButDirty s s')
    (hk : ∀ t c, EqButDirty (k t) (k' { t with dirty := c })) : EqButDirty (busWrite o v s k) (busWrite o v s' k') := by
  obtain ⟨b, rfl⟩ := h
  exact EqButDirty.busDo_congr ⟨b, rfl⟩ (hk _ b)

theorem EqButDirty.busWrites_congr {bs : List Byte} {k k' : State → State} (h : EqButDirty s s')
    (hk : ∀ t c, EqButDirty (k t) (k' { t with dirty := c })) : EqButDirty (busWrites o bs s k) (busWrites o bs s' k') := by
  induction bs generalizing s s' with
  | nil =>
    obtain ⟨b, rfl⟩ := h
    exact hk s b
  | cons _ bs ih => exact h.busWrite_congr fun t c => ih ⟨c, rfl⟩

theorem EqButDirty.busRead_congr {k k' : Byte → State → State} (h : EqButDirty s s')
    (hk : ∀ v t c, EqButDirty (k v t) (k' v { t with dirty := c })) : EqButDirty (busRead o s k) (busRead o s' k') := by
  obtain ⟨b, rfl⟩ := h
  exact EqButDirty.busDo_congr ⟨b, rfl⟩ (hk _ _ b)

theorem EqButDirty.busReset_congr {k k' : Bool → State → State} (h : EqButDirty s s')
    (hk : ∀ p t c, EqButDirty (k p t) (k' p { t with dirty := c })) : EqButDirty (busReset o s k) (busReset o s' k') := by
  obtain ⟨b, rfl⟩ := h
  exact EqButDirty.busDo_congr ⟨b, rfl⟩ (hk _ _ b)

theorem EqButDirty.busWriteBit_congr {v : Bool} {k k' : State → State} (h : EqButDirty s s')
    (hk : ∀ t c, EqButDirty (k t) (k' { t with dirty := c })) : EqButDirty (busWriteBit o v s k) (busWriteBit o v s' k') := by
  obtain ⟨b, rfl⟩ := h
  exact EqButDirty.busDo_congr ⟨b, rfl⟩ (hk _ b)

theorem EqButDirty.busReadBit_congr {k k' : Bool → State → State} (h : EqButDirty s s')
    (hk : ∀ v t c, EqButDirty (k v t) (k' v { t with dirty := c })) : EqButDirty (busReadBit o s k) (busReadBit o s' k') := by
  obtain ⟨b, rfl⟩ := h
  exact EqButDirty.busDo_congr ⟨b, rfl⟩ (hk _ _ b)

theorem EqButDirty.busSearch_congr {k k' : Option Ident → State → State} (h : EqButDirty s s')
    (hk : ∀ r t c, EqButDirty (k r t) (k' r { t with dirty := c })) : EqButDirty (busSearch o s k) (busSearch o s' k') := by
  obtain ⟨b, rfl⟩ := h
  exact EqButDirty.busDo_congr ⟨b, rfl⟩ (hk _ _ b)

/-! Comparisons. -/

theorem EqButDirty.crcCheck_congr (h : EqButDirty s s') (x y : Byte) : EqButDirty (crcCheck x y s) (crcCheck x y s') := by
  obtain ⟨b, rfl⟩ := h
  unfold crcCheck
  split
  · exact ⟨b, rfl⟩
  · exact ⟨true, rfl⟩

theorem EqButDirty.writeEchoCheck_congr (h : EqButDirty s s') (x y : Byte) :
    EqButDirty (writeEchoCheck x y s) (writeEchoCheck x y s') := by
  obtain ⟨b, rfl⟩ := h
  unfold writeEchoCheck
  split
  · exact EqButDirty.crcCheck_congr ⟨b, rfl⟩ x y
  · exact EqButDirty.crcCheck_congr ⟨b, rfl⟩ x y

theorem EqButDirty.readbackCheck_congr (h : EqButDirty s s') (d v : Byte) :
    EqButDirty (readbackCheck d v s) (readbackCheck d v s') := by
  obtain ⟨b, rfl⟩ := h
  unfold readbackCheck
  split
  · exact ⟨b, rfl⟩
  · exact ⟨true, rfl⟩

end

/-! The commands. -/

section
variable (o : Oracle) (s : State) (b : Bool)

theorem effectOf_crcCheckId_eqButDirty :
    EqButDirty (effectOf o .crcCheckId s) (effectOf o .crcCheckId { s with dirty := b }) :=
  EqButDirty.readVal_congr ⟨b, rfl⟩ fun _ => EqButDirty.readVal_congr ⟨b, rfl⟩ fun v =>
    EqButDirty.crcCheck_congr ⟨b, rfl⟩ _ v

theorem validateBus_eqButDirty : EqButDirty (validateBus o s) (validateBus o { s with dirty := b }) :=
  EqButDirty.readVal_congr ⟨b, rfl⟩ fun _ => EqButDirty.busRead_congr ⟨b, rfl⟩ fun v _ c =>
    EqButDirty.crcCheck_congr ⟨c, rfl⟩ _ v

theorem sendRead_eqButDirty (a : Word16) : EqButDirty (sendRead o a s) (sendRead o a { s with dirty := b }) :=
  EqButDirty.busWrites_congr ⟨b, rfl⟩ fun _ c => EqButDirty.busRead_congr ⟨c, rfl⟩ fun v _ c =>
    EqButDirty.crcCheck_congr ⟨c, rfl⟩ _ v

theorem sendWrite_eqButDirty (a : Word16) (d : Byte) :
    EqButDirty (sendWrite o a d s) (sendWrite o a d { s with dirty := b }) :=
  EqButDirty.busWrites_congr ⟨b, rfl⟩ fun _ c => EqButDirty.busRead_congr ⟨c, rfl⟩ fun v _ c =>
    EqButDirty.writeEchoCheck_congr ⟨c, rfl⟩ _ v

theorem sendWriteNext_eqButDirty (d : Byte) :
    EqButDirty (sendWriteNext o d s) (sendWriteNext o d { s with dirty := b }) := by
  unfold sendWriteNext
  split
  · exact EqButDirty.readVal_congr ⟨b, rfl⟩ fun _ => EqButDirty.busWrite_congr ⟨b, rfl⟩ fun _ c =>
      EqButDirty.busRead_congr ⟨c, rfl⟩ fun v _ c => EqButDirty.writeEchoCheck_congr ⟨c, rfl⟩ _ v
  · exact ⟨b, rfl⟩

theorem readback_eqButDirty (d : Byte) : EqButDirty (readback o d s) (readback o d { s with dirty := b }) := by
  unfold readback
  split
  · exact EqButDirty.busRead_congr ⟨b, rfl⟩ fun v _ c => EqButDirty.readbackCheck_congr ⟨c, rfl⟩ d v
  · exact ⟨b, rfl⟩

theorem txReset_eqButDirty : EqButDirty (txReset o s) (txReset o { s with dirty := b }) := by
  unfold txReset
  exact EqButDirty.busReset_congr ⟨b, rfl⟩ fun _ _ _ => ⟨false, rfl⟩

theorem txReadBit_eqButDirty : EqButDirty (txReadBit o s) (txReadBit o { s with dirty := b }) := by
  unfold txReadBit
  exact EqButDirty.busReadBit_congr ⟨b, rfl⟩ fun _ _ c => ⟨c, rfl⟩

theorem txWriteBytes_eqButDirty (len : Byte) :
    EqButDirty (txWriteBytes o len s) (txWriteBytes o len { s with dirty := b }) := by
  unfold txWriteBytes
  split
  · exact ⟨b, rfl⟩
  · exact EqButDirty.readVal_congr ⟨b, rfl⟩ fun _ => EqButDirty.busWrites_congr ⟨b, rfl⟩ fun _ c => ⟨c, rfl⟩

theorem searchResult_eqButDirty (r : Option Ident) :
    EqButDirty (searchResult r s) (searchResult r { s with dirty := b }) := by
  cases r with
  | none => exact ⟨b, rfl⟩
  | some ident => exact ⟨b, rfl⟩

theorem selOperand_eq_status_iff (d : Byte) : selOperand d = some .status ↔ d = 0x00 := by
  revert d
  decide

theorem readReg_of_ne_status {r : Selector} (hr : r ≠ .status) : readReg r { s with dirty := b } = readReg r s := by
  cases r with
  | status => exact absurd rfl hr
  | _ => rfl

/-- STATUS carries DIRTY in its bit 7; no other selector reads it (10_state.md R41). -/
theorem effectOf_regRd_eqButDirty {sel : Byte} (hsel : sel ≠ 0x00) :
    EqButDirty (effectOf o (.regRd sel) s) (effectOf o (.regRd sel) { s with dirty := b }) := by
  simp only [effectOf]
  split
  · exact ⟨b, rfl⟩
  · rename_i r hr
    have hstatus : r ≠ .status := fun h => hsel ((selOperand_eq_status_iff sel).mp (h ▸ hr))
    rw [readReg_of_ne_status s b hstatus]
    exact EqButDirty.readVal_congr ⟨b, rfl⟩ fun _ => ⟨b, rfl⟩

/-- From a state with another DIRTY, every command but the STATUS read ends in the same state, DIRTY apart. -/
theorem effectOf_eqButDirty {i : Instr} (hi : i ≠ .regRd 0x00) :
    EqButDirty (effectOf o i s) (effectOf o i { s with dirty := b }) := by
  cases i with
  | crcCheckId => exact effectOf_crcCheckId_eqButDirty o s b
  | fcValidate d =>
    exact EqButDirty.readVal_congr ⟨b, rfl⟩ fun _ => EqButDirty.crcCheck_congr ⟨b, rfl⟩ _ d
  | fcValidateBus => exact validateBus_eqButDirty o s b
  | fcSendRead a => exact sendRead_eqButDirty o s b a
  | fcSendWrite a d => exact sendWrite_eqButDirty o s b a d
  | fcSendWriteNext d => exact sendWriteNext_eqButDirty o s b d
  | fcReadback d => exact readback_eqButDirty o s b d
  | txReset => exact txReset_eqButDirty o s b
  | txReadByte => exact EqButDirty.busRead_congr ⟨b, rfl⟩ fun _ _ c => ⟨c, rfl⟩
  | txWriteBit v => exact EqButDirty.busWriteBit_congr ⟨b, rfl⟩ fun _ c => ⟨c, rfl⟩
  | txReadBit => exact txReadBit_eqButDirty o s b
  | txWriteByte | txSkip => exact EqButDirty.busWrite_congr ⟨b, rfl⟩ fun _ c => ⟨c, rfl⟩
  | txWriteBytes len => exact txWriteBytes_eqButDirty o s b len
  | txSearch => exact EqButDirty.busSearch_congr ⟨b, rfl⟩ fun r t c => searchResult_eqButDirty t c r
  | fbWr idx d =>
    simp only [effectOf]
    split
    · exact ⟨b, rfl⟩
    · exact ⟨b, rfl⟩
  | fbRd idx =>
    simp only [effectOf]
    split
    · exact ⟨b, rfl⟩
    · exact EqButDirty.readVal_congr ⟨b, rfl⟩ fun _ => ⟨b, rfl⟩
  | setLen len =>
    simp only [effectOf]
    split
    · exact ⟨b, rfl⟩
    · exact ⟨b, rfl⟩
  | regRd sel => exact effectOf_regRd_eqButDirty o s b fun h => hi (h ▸ rfl)
  | nop | crcInit | crcUpdate | fcBuildRead | fcBuildWrite | txResetSearch => exact ⟨b, rfl⟩

end

/-- Settles O42: how a command can end says what it does to DIRTY, and the congruence of every command that DIRTY decides
nothing. -/
theorem dirtyIsAReportOnly : Obligations.DirtyIsAReportOnly := by
  unfold Obligations.DirtyIsAReportOnly
  refine ⟨fun i s t h hpc herr => ?_, fun i s t h hs ht => ?_, fun i s t h hs ht => ?_, fun i s t b hi h => ?_, rfl⟩
  · obtain ⟨-, -, hok⟩ | ⟨hset, -⟩ | ⟨-, hother⟩ := dirty_cases_of_ends (ends_of_exec h)
    · simp [hok] at herr
    · exact hset
    · obtain ⟨hcrc, hverify⟩ := hother hpc
      exact absurd herr (not_or.mpr ⟨hcrc, hverify⟩)
  · obtain ⟨htx, -, -⟩ | ⟨hset, -⟩ | ⟨hkeep, -⟩ := dirty_cases_of_ends (ends_of_exec h)
    · exact htx
    · simp [hset] at ht
    · simp [hkeep, hs] at ht
  · obtain ⟨-, hclear, -⟩ | ⟨-, herr⟩ | ⟨hkeep, -⟩ := dirty_cases_of_ends (ends_of_exec h)
    · simp [hclear] at ht
    · exact herr
    · simp [hkeep, hs] at ht
  · obtain ⟨b', hb'⟩ := effectOf_eqButDirty Config.oracle s b hi
    refine ⟨b', ?_⟩
    rw [exec_eq_next, hb', eq_effectOf_of_exec h]

end Sys2Proof.Proofs
end

section
/-! PROOF. The illegal opcodes (30_encoding.md R75): the ranges of `illegalOp` are the complement of `decode`'s opcode map, and
a running block finishes a word that decodes to no instruction with E_ILLEGAL. -/

namespace Sys2Proof.Proofs
open Sys2Proof Sys2Proof.Machine Sys2Proof.Safety Sys2Proof.Claims

/-- The obligation reads OP by a shift, the decoder as the field of R70. -/
theorem ushiftRight_24_toNat (w : CmdWord) : (w >>> 24).toNat = (opField w).toNat := by
  have hlt : w.toNat < 2 ^ 32 := w.isLt
  simp only [opField, BitVec.toNat_ushiftRight, BitVec.extractLsb'_toNat, Nat.shiftRight_eq_div_pow]
  omega

theorem illegalOp_eq_false_of_decode_ok {w : CmdWord} {i : Instr} (h : decode w = .ok i) :
    illegalOp (opField w).toNat = false := by
  unfold decode at h
  split at h
  case h_26 => cases h
  all_goals
    rename_i hop
    rw [hop]
    rfl

theorem illegalOp_eq_true_of_decode_error {w : CmdWord} {e : DecodeError} (h : decode w = .error e) :
    illegalOp (opField w).toNat = true := by
  have hlt : (opField w).toNat < 256 := (opField w).isLt
  unfold decode at h
  split at h
  case h_26 =>
    -- OP is none of the 25 mapped values, so it lies in a gap between them.
    simp only [imp_false, illegalOp, Bool.or_eq_true, Bool.and_eq_true, decide_eq_true_eq] at *
    omega
  all_goals cases h

theorem decode_error_iff_illegalOp (w : CmdWord) :
    (∃ e, decode w = .error e) ↔ illegalOp (opField w).toNat = true := by
  refine ⟨fun ⟨_, he⟩ => illegalOp_eq_true_of_decode_error he, fun hill => ?_⟩
  cases hd : decode w with
  | ok i => simp [illegalOp_eq_false_of_decode_ok hd] at hill
  | error e => exact ⟨e, rfl⟩

/-- A running block with an illegal word at pc finishes it with E_ILLEGAL. -/
theorem step_of_decode_error {s : State} {w : CmdWord} {e : DecodeError} (hrun : Running s)
    (hw : s.stream[s.pc]? = some w) (hd : decode w = .error e) : step s = .next (finish .eIllegal 0x00 s) := by
  simp [step, fetch, (haltReason_eq_none_iff s).mpr hrun, hw, hd, illegalCommand]

/-- The obligation's record update is the machine's finish with E_ILLEGAL, code 0x05 of 60_exceptions.md R211. -/
theorem finish_eIllegal_eq_returns (s : State) : finish .eIllegal 0x00 s = returns 0x05 0x00 s := rfl

/-- Settles O35, by the branches of the opcode map. -/
theorem illegalOpcodesFinishWithEIllegal : Obligations.IllegalOpcodesFinishWithEIllegal := by
  unfold Obligations.IllegalOpcodesFinishWithEIllegal
  refine ⟨fun w => ?_, rfl, fun s w hrun hw hill => ?_⟩
  · rw [ushiftRight_24_toNat]
    exact decode_error_iff_illegalOp w
  · rw [ushiftRight_24_toNat] at hill
    obtain ⟨e, he⟩ := (decode_error_iff_illegalOp w).mpr hill
    rw [step_of_decode_error hrun hw he, finish_eIllegal_eq_returns]

end Sys2Proof.Proofs
end

section
/-! PROOF. The CRC-8 validator (41_crc.md R101-R104). Under DALLAS a step gives 0x00 exactly when the byte equals the
accumulator: the polynomial has bit 7 set, so no round loses a difference between the two. -/

namespace Sys2Proof.Proofs
open Sys2Proof Sys2Proof.Machine Sys2Proof.Claims

/-! The step and the fold. -/

/-- A round leaves the CRC equal to the bits still to come exactly when it was equal to them before: where the lowest bits
differ, the polynomial sets bit 7, which no shifted byte has. -/
theorem reflectedRound_eq_shiftRight_iff {poly : Byte} (hpoly : poly[7] = true) (c b : Byte) :
    reflectedRound poly b c 0 = b >>> 1 ↔ c = b := by
  unfold reflectedRound
  split
  case isTrue hdiff =>
    refine ⟨fun h => ?_, fun h => ?_⟩
    · have hbit := congrArg (BitVec.getLsbD · 7) h
      simp [hpoly] at hbit
    · simp [h] at hdiff
  case isFalse hsame =>
    refine ⟨fun h => BitVec.eq_of_getLsbD_eq fun k hk => ?_, fun h => h ▸ rfl⟩
    cases k with
    | zero => simpa using hsame
    | succ k => simpa [Nat.add_comm 1 k] using congrArg (BitVec.getLsbD · k) h

theorem lsbFirst_eq_shiftRight_iff {poly : Byte} (hpoly : poly[7] = true) (k : Nat) (c b : Byte) :
    lsbFirst poly k c b = b >>> k ↔ c = b := by
  induction k generalizing c b with
  | zero => simp [lsbFirst]
  | succ k ih =>
    rw [lsbFirst_succ, Nat.add_comm k 1, BitVec.shiftRight_add, ih, reflectedRound_eq_shiftRight_iff hpoly]

/-- After eight rounds no bit of the byte is left, so equality with what is left is equality with 0x00. -/
theorem crc8Step_dallas_eq_zero_iff (c b : Byte) : crc8Step Crc8Algo.dallas c b = 0x00 ↔ c = b := by
  have hnone : b >>> 8 = 0x00 := BitVec.ushiftRight_eq_zero (Nat.le_refl 8)
  rw [crc8Step_dallas, ← hnone]
  exact lsbFirst_eq_shiftRight_iff rfl 8 c b

theorem crc8_append_singleton (g : Crc8Algo) (bs : List Byte) (b : Byte) :
    crc8 g (bs ++ [b]) = crc8Step g (crc8 g bs) b := by
  simp [crc8]

theorem crc8_dallas_append_eq_zero_iff (bs : List Byte) (b : Byte) :
    crc8 Crc8Algo.dallas (bs ++ [b]) = 0x00 ↔ crc8 Crc8Algo.dallas bs = b := by
  rw [crc8_append_singleton, crc8Step_dallas_eq_zero_iff]

theorem crc8_dallas_replicate_zero (n : Nat) : crc8 Crc8Algo.dallas (List.replicate n 0x00) = 0x00 := by
  induction n with
  | zero => rfl
  | succ n ih => rw [List.replicate_succ', crc8_dallas_append_eq_zero_iff, ih]

/-! The obligations' helpers, tied to the machine's operations. -/

@[simp] theorem opField_word (op : Byte) (a : Word16) (d : Byte) : opField (word op a d) = op := opField_packWord op a d

@[simp] theorem dField_word (op : Byte) (a : Word16) (d : Byte) : dField (word op a d) = d := dField_packWord op a d

theorem finish_eNone_eq_returns (v : Byte) (s : State) : finish .eNone v s = returns 0x00 v s := rfl

theorem crcCheck_eq_compared (c o : Byte) (s : State) : crcCheck c o s = compared c o s := rfl

theorem execAll_cons (i : Instr) (is : List Instr) (s : State) :
    execAll (i :: is) s = execAll is (effectOf Config.oracle i s) := by
  rw [execAll, exec_eq_next]

/-! CRC_INIT and CRC_UPDATE. -/

theorem decode_word_crcInit (a : Word16) (d : Byte) : decode (word 0x10 a d) = .ok .crcInit := by
  simp [decode]

theorem decode_word_crcUpdate (a : Word16) (d : Byte) : decode (word 0x11 a d) = .ok (.crcUpdate d) := by
  simp [decode]

/-- CRC_UPDATE of each byte of a list folds the step over the list, from whatever the accumulator holds. -/
theorem execAll_crcUpdate (bs : List Byte) (s : State) :
    ∃ t, execAll (bs.map .crcUpdate) s = .next t ∧ t.crc = bs.foldl (crc8Step s.params.crc8) s.crc := by
  induction bs generalizing s with
  | nil => exact ⟨s, rfl, rfl⟩
  | cons b bs ih =>
    rw [List.map_cons, execAll_cons]
    exact ih _

/-- Settles O7: the step gives 0x00 for equal bytes, and the list clause is the fold of CRC_UPDATE from CRC8_INIT. -/
theorem crcUpdateShiftsOneByteIn : Obligations.CrcUpdateShiftsOneByteIn := by
  unfold Obligations.CrcUpdateShiftsOneByteIn
  refine ⟨decode_word_crcUpdate, fun s d => ?_, fun c => (crc8Step_dallas_eq_zero_iff c c).mpr rfl, fun s bs => ?_⟩
  · rw [exec_eq_next, effectOf, finish_eNone_eq_returns]
  · rw [execAll_cons]
    exact execAll_crcUpdate bs _

/-- Settles O6: CRC_INIT ends in one way, and its value is what the obligation returns. -/
theorem crcInitLoadsTheInitialValue : Obligations.CrcInitLoadsTheInitialValue := by
  unfold Obligations.CrcInitLoadsTheInitialValue
  refine ⟨decode_word_crcInit, fun s => ?_, crc8Init_dallas⟩
  rw [exec_eq_next, effectOf, finish_eNone_eq_returns]

/-- Settles O9: the last step gives 0x00 exactly when the last byte is the CRC of the bytes before it. -/
theorem appendedCrcLeavesZeroResidue : Obligations.AppendedCrcLeavesZeroResidue := by
  unfold Obligations.AppendedCrcLeavesZeroResidue
  exact ⟨fun bs => (crc8_dallas_append_eq_zero_iff bs _).mpr rfl,
    fun bs b => (crc8_dallas_append_eq_zero_iff bs b).symm⟩

/-! CRC_CHECK_ID. -/

theorem decode_word_crcCheckId (a : Word16) (d : Byte) : decode (word 0x12 a d) = .ok .crcCheckId := by
  simp [decode]

theorem fbPrefix_of_fb_eq_map {s : State} {ident : Ident} (h : s.fb = ident.map some) (n : Nat) :
    fbPrefix n s = some (ident.toList.take n) := by
  rw [fbPrefix_eq_some_iff, h, Vector.toList_map, List.map_take]

/-- FB is its first seven cells and the eighth. -/
theorem fb_toList_eq_take_append (s : State) : s.fb.toList = s.fb.toList.take 7 ++ [s.fb[7]] := by
  rw [← Vector.getElem_toList (by simp), List.take_append_getElem, List.take_of_length_le (by simp)]

theorem effectOf_crcCheckId_of_written {s : State} {bs : List Byte} {b : Byte} (o : Oracle)
    (hbs : fbPrefix 7 s = some bs) (hb : s.fb[7] = some b) :
    effectOf o .crcCheckId s = compared (crc8 s.params.crc8 bs) b s := by
  simp only [effectOf, hbs, hb, readVal_some, crcCheck_eq_compared]

theorem effectOf_crcCheckId_of_unwritten {s : State} (o : Oracle) (h : none ∈ s.fb.toList) :
    effectOf o .crcCheckId s = faults s := by
  rw [fb_toList_eq_take_append, List.mem_append, ← fbPrefix_eq_none_iff, List.mem_singleton] at h
  obtain hpre | hlast := h
  · rw [effectOf, hpre, readVal_none]
    rfl
  · refine readVal_ind (P := (· = faults s)) (fun _ => rfl) fun bs _ => ?_
    rw [← hlast]
    rfl

/-- Settles O8: a written buffer is seven bytes and an eighth; an unwritten cell is one of the first seven or the eighth. -/
theorem crcCheckIdComparesSevenBytesWithTheEighth : Obligations.CrcCheckIdComparesSevenBytesWithTheEighth := by
  unfold Obligations.CrcCheckIdComparesSevenBytesWithTheEighth
  refine ⟨decode_word_crcCheckId, fun s ident h => ?_, fun s h => ?_, crc8_dallas_replicate_zero 7⟩
  · have hlast : s.fb[7] = some ident[7] := by simp [h]
    rw [exec_eq_next, effectOf_crcCheckId_of_written _ (fbPrefix_of_fb_eq_map h 7) hlast]
  · rw [exec_eq_next, effectOf_crcCheckId_of_unwritten _ h]

end Sys2Proof.Proofs
end

section
/-! PROOF. The obligations' helpers for frames and the bus (20_memory.md R52, R53, 00_scope.md R10, R11), tied to the machine's
operations: the same frames, the same transfers, the same comparisons. -/

namespace Sys2Proof.Proofs
open Sys2Proof Sys2Proof.Machine Sys2Proof.Claims

@[simp] theorem aField_word (op : Byte) (a : Word16) (d : Byte) : aField (word op a d) = a := aField_packWord op a d

theorem addrLo_eq_lo (a : Word16) : addrLo a = lo a := (BitVec.setWidth_eq_extractLsb' (by decide)).symm

theorem addrHi_eq_hi (a : Word16) : addrHi a = hi a := by
  apply BitVec.eq_of_getLsbD_eq
  intro k hk
  simp [addrHi, hi, hk]

theorem readFrame_eq (a : Word16) : readFrame a = [0xF0, lo a, hi a] := by
  rw [readFrame, addrLo_eq_lo, addrHi_eq_hi, Config.opRead]

theorem writeFrame_eq_frame4 (a : Word16) (d : Byte) : writeFrame a d = frame4 a d := by
  rw [writeFrame, addrLo_eq_lo, addrHi_eq_hi, Config.opWrite, frame4]

theorem putReadFrame_eq_withReadFrame (a : Word16) (s : State) : putReadFrame a s = withReadFrame a s := by
  have hfb := putReadFrame_fb_cells a s
  rw [addrLo_eq_lo, addrHi_eq_hi] at hfb
  exact congrArg (fun fb => { s with fb := fb, flen := 3 }) hfb

theorem putWriteFrame_eq_withWriteFrame (a : Word16) (d : Byte) (s : State) :
    putWriteFrame a d s = withWriteFrame a d s := by
  have hfb := putWriteFrame_fb_cells a d s
  rw [addrLo_eq_lo, addrHi_eq_hi] at hfb
  exact congrArg (fun fb => { s with fb := fb, flen := 4 }) hfb

theorem raiseUnwritten_eq_faults (s : State) : raiseUnwritten s = faults s := rfl

theorem finish_eSeq_eq_returns (s : State) : finish .eSeq 0x00 s = returns 0x03 0x00 s := rfl

theorem busRead_eq_reads (s : State) (k : Byte → State → State) : busRead Config.oracle s k = reads s k := rfl

theorem busWrites_eq_sends (bs : List Byte) (s : State) (k : State → State) :
    busWrites Config.oracle bs s k = sends bs s k := by
  induction bs generalizing s with
  | nil => rfl
  | cons b bs ih =>
    unfold busWrites busWrite busDo busStalls sends writeOut
    split
    · rfl
    · exact ih _

theorem busWrite_eq_sends (b : Byte) (s : State) (k : State → State) :
    busWrite Config.oracle b s k = sends [b] s k := busWrites_eq_sends [b] s k

theorem writeEchoCheck_eq_echoed (c o : Byte) (s : State) : writeEchoCheck c o s = echoed c o s := by
  unfold writeEchoCheck echoed
  split
  · rename_i h
    rw [h, crcCheck_match, finish_eNone_eq_returns]
  · exact crcCheck_mismatch ‹_› s

/-- On a bus that always returns, a frame and its echo read leave one event for each byte, and the echo in RXB. -/
theorem busWrites_busRead_of_returns {s : State} (bs : List Byte) (h : s.params.busAlwaysReturns = true)
    (k : Byte → State → State) :
    (busWrites Config.oracle bs s fun u => busRead Config.oracle u k) =
      k (Config.oracle.readByte (s.trace ++ bs.map .write))
        { s with
          trace := s.trace ++ bs.map .write ++ [.read (Config.oracle.readByte (s.trace ++ bs.map .write))]
          rxb := some (Config.oracle.readByte (s.trace ++ bs.map .write)) } :=
  (busWrites_of_returns bs h _).trans (busRead_of_returns (s := { s with trace := s.trace ++ bs.map .write }) h k)

end Sys2Proof.Proofs
end

section
/-! PROOF. The frame codec's builders and checks (42_frame_codec.md R120-R123). -/

namespace Sys2Proof.Proofs
open Sys2Proof Sys2Proof.Machine Sys2Proof.Claims

/-! FC_BUILD_READ and FC_BUILD_WRITE. -/

theorem decode_word_fcBuildRead (a : Word16) (d : Byte) : decode (word 0x20 a d) = .ok (.fcBuildRead a) := by
  simp [decode]

theorem decode_word_fcBuildWrite (a : Word16) (d : Byte) : decode (word 0x21 a d) = .ok (.fcBuildWrite a d) := by
  simp [decode]

/-- Settles O11: the frame put in FB is the read frame, and FC_BUILD_READ does no more than put it. -/
theorem buildReadPutsTheReadFrame : Obligations.BuildReadPutsTheReadFrame := by
  unfold Obligations.BuildReadPutsTheReadFrame
  refine ⟨decode_word_fcBuildRead, fun s a => ?_⟩
  rw [exec_eq_next, effectOf, finish_eNone_eq_returns, putReadFrame_eq_withReadFrame]

/-- Settles O12: the frame put in FB is the write frame, and FC_BUILD_WRITE does no more than put it. -/
theorem buildWritePutsTheWriteFrame : Obligations.BuildWritePutsTheWriteFrame := by
  unfold Obligations.BuildWritePutsTheWriteFrame
  refine ⟨decode_word_fcBuildWrite, fun s a d => ?_⟩
  rw [exec_eq_next, effectOf, finish_eNone_eq_returns, putWriteFrame_eq_withWriteFrame]

/-! FC_VALIDATE and FC_VALIDATE_BUS. -/

theorem decode_word_fcValidate (a : Word16) (d : Byte) : decode (word 0x22 a d) = .ok (.fcValidate d) := by
  simp [decode]

theorem decode_word_fcValidateBus (a : Word16) (d : Byte) : decode (word 0x23 a d) = .ok .fcValidateBus := by
  simp [decode]

section
variable {s : State} {bs : List Byte}

theorem fbPrefix_of_holds {n : Nat} (h : holds s n bs) : fbPrefix n s = some bs := (fbPrefix_eq_some_iff n s bs).mpr h

theorem effectOf_fcValidate_of_holds (o : Oracle) (d : Byte) (h : holds s s.flen.val bs) :
    effectOf o (.fcValidate d) s = compared (crc8 s.params.crc8 bs) d s := by
  rw [effectOf, fbPrefix_of_holds h, readVal_some, crcCheck_eq_compared]

theorem effectOf_fcValidate_of_unwritten (o : Oracle) (d : Byte) (h : none ∈ s.fb.toList.take s.flen.val) :
    effectOf o (.fcValidate d) s = faults s := by
  rw [effectOf, (fbPrefix_eq_none_iff _ s).mpr h, readVal_none, raiseUnwritten_eq_faults]

theorem validateBus_of_holds (o : Oracle) (h : holds s s.flen.val bs) :
    validateBus o s = busRead o s fun obs u => crcCheck (crc8 u.params.crc8 bs) obs u := by
  rw [validateBus, fbPrefix_of_holds h, readVal_some]

theorem validateBus_of_unwritten (o : Oracle) (h : none ∈ s.fb.toList.take s.flen.val) : validateBus o s = faults s := by
  rw [validateBus, (fbPrefix_eq_none_iff _ s).mpr h, readVal_none, raiseUnwritten_eq_faults]

/-- On a bus that always returns FC_VALIDATE_BUS compares with the byte drawn. -/
theorem validateBus_of_returns (h : holds s s.flen.val bs) (hb : s.params.busAlwaysReturns = true) :
    validateBus Config.oracle s = compared (crc8 s.params.crc8 bs) (Config.oracle.readByte s.trace)
      { s with
        trace := s.trace ++ [.read (Config.oracle.readByte s.trace)]
        rxb := some (Config.oracle.readByte s.trace) } := by
  rw [validateBus_of_holds _ h, busRead_of_returns hb, crcCheck_eq_compared]
  rfl

end

/-- Settles O13: FB[0..FLEN-1] is a list of bytes or has a cell without one. -/
theorem validateComparesTheFrameCrc : Obligations.ValidateComparesTheFrameCrc := by
  unfold Obligations.ValidateComparesTheFrameCrc
  refine ⟨decode_word_fcValidate, fun s d bs h => ?_, fun s d h => ?_, fun _ => rfl, crc8Init_dallas⟩
  · rw [exec_eq_next, effectOf_fcValidate_of_holds _ d h]
  · rw [exec_eq_next, effectOf_fcValidate_of_unwritten _ d h]

/-! A write frame built and sent by hand: FC_BUILD_WRITE, TX_WRITE_BYTES 4, FC_VALIDATE_BUS (R123). -/

theorem effectOf_txWriteBytes_of_holds {s : State} {bs : List Byte} {len : Byte} (o : Oracle) (hlen : len.toNat ≤ 8)
    (h : holds s len.toNat bs) : effectOf o (.txWriteBytes len) s = busWrites o bs s (finish .eNone len) := by
  have hop : lenOperand len = some ⟨len.toNat, by omega⟩ := (lenOperand_eq_some_iff len _).mpr rfl
  rw [effectOf, txWriteBytes, hop]
  simp only [fbPrefix_of_holds h, readVal_some]

/-- The state that FC_BUILD_WRITE and then TX_WRITE_BYTES 4 leave on a bus that always returns. -/
def afterHandWrite (a : Word16) (d : Byte) (s : State) : State :=
  finish .eNone 4 { finish .eNone 0x04 (putWriteFrame a d s) with trace := s.trace ++ (frame4 a d).map .write }

theorem holds_of_fb_eq_putWriteFrame {s t : State} {a : Word16} {d : Byte} (h : t.fb = (putWriteFrame a d s).fb) :
    holds t 4 (frame4 a d) := by
  rw [holds, h, putWriteFrame_fb_cells, addrLo_eq_lo, addrHi_eq_hi]
  rfl

theorem execAll_handWrite {s : State} (a : Word16) (d : Byte) (is : List Instr)
    (hb : s.params.busAlwaysReturns = true) :
    execAll (.fcBuildWrite a d :: .txWriteBytes 4 :: is) s = execAll is (afterHandWrite a d s) := by
  have hheld : holds (finish .eNone 0x04 (putWriteFrame a d s)) 4 (frame4 a d) := holds_of_fb_eq_putWriteFrame rfl
  rw [execAll_cons, execAll_cons, effectOf_txWriteBytes_of_holds _ (by decide) hheld, busWrites_of_returns]
  · rfl
  · exact hb

@[simp] theorem compared_trace (c o : Byte) (s : State) : (compared c o s).trace = s.trace := by
  unfold compared
  split <;> rfl

@[simp] theorem compared_waddr (c o : Byte) (s : State) : (compared c o s).waddr = s.waddr := by
  unfold compared
  split <;> rfl

@[simp] theorem compared_exp (c o : Byte) (s : State) : (compared c o s).exp = some c := by
  unfold compared
  split <;> rfl

@[simp] theorem compared_obs (c o : Byte) (s : State) : (compared c o s).obs = some o := by
  unfold compared
  split <;> rfl

/-- A match leaves WPH. -/
theorem compared_wph_of_eq {c o : Byte} (h : c = o) (s : State) : (compared c o s).wph = s.wph := by
  rw [compared, if_pos h]
  rfl

/-- Settles O14: FC_VALIDATE_BUS is a byte read and CrcCheck, and the hand-sent frame is held and compared the same way. -/
theorem validateBusComparesTheByteRead : Obligations.ValidateBusComparesTheByteRead := by
  unfold Obligations.ValidateBusComparesTheByteRead
  refine ⟨decode_word_fcValidateBus, fun s bs h => ?_, fun s bs h hb => ?_, fun s h => ?_, fun s a d hb => ?_⟩
  · rw [exec_eq_next, effectOf, validateBus_of_holds _ h, busRead_eq_reads]
    rfl
  · rw [exec_eq_next, effectOf, validateBus_of_returns h hb]
  · rw [exec_eq_next, effectOf, validateBus_of_unwritten _ h]
  · have hheld : holds (afterHandWrite a d s) 4 (frame4 a d) := holds_of_fb_eq_putWriteFrame rfl
    refine ⟨effectOf Config.oracle .fcValidateBus (afterHandWrite a d s), execAll_handWrite a d _ hb, ?_⟩
    rw [effectOf, validateBus_of_returns hheld hb]
    refine ⟨compared_trace _ _ _, compared_waddr _ _ _, compared_exp _ _ _, fun heq => ?_⟩
    rw [compared_exp, compared_obs] at heq
    exact compared_wph_of_eq (Option.some.inj heq) _

end Sys2Proof.Proofs
end

section
/-! PROOF. The frame codec's commands that send and read back (42_frame_codec.md R124-R127), each in the obligations' transfers
and comparisons, for any bus and for one that always returns. -/

namespace Sys2Proof.Proofs
open Sys2Proof Sys2Proof.Machine Sys2Proof.Claims

theorem decode_word_fcSendRead (a : Word16) (d : Byte) : decode (word 0x24 a d) = .ok (.fcSendRead a) := by
  simp [decode]

theorem decode_word_fcSendWrite (a : Word16) (d : Byte) : decode (word 0x25 a d) = .ok (.fcSendWrite a d) := by
  simp [decode]

theorem decode_word_fcSendWriteNext (a : Word16) (d : Byte) : decode (word 0x26 a d) = .ok (.fcSendWriteNext d) := by
  simp [decode]

theorem decode_word_fcReadback (a : Word16) (d : Byte) : decode (word 0x27 a d) = .ok (.fcReadback d) := by
  simp [decode]

/-- Settles O15: FC_SEND_READ is the read frame put, sent and its echo compared. -/
theorem sendReadTransmitsAndChecksTheEcho : Obligations.SendReadTransmitsAndChecksTheEcho := by
  unfold Obligations.SendReadTransmitsAndChecksTheEcho
  refine ⟨decode_word_fcSendRead, fun s a => ?_, fun s a hb => ?_⟩
  · rw [exec_eq_next, effectOf, sendRead, busWrites_eq_sends, readFrame_eq, putReadFrame_eq_withReadFrame]
    rfl
  · rw [exec_eq_next, effectOf, sendRead, busWrites_busRead_of_returns, readFrame_eq, putReadFrame_eq_withReadFrame]
    · rfl
    · exact hb

/-- Settles O16: FC_SEND_WRITE is the write frame put, sent and its echo compared, in whatever write phase. -/
theorem sendWriteTransmitsAndOpensTheSequence : Obligations.SendWriteTransmitsAndOpensTheSequence := by
  unfold Obligations.SendWriteTransmitsAndOpensTheSequence
  refine ⟨decode_word_fcSendWrite, fun s a d => ?_, fun s a d hb => ?_⟩
  · simp only [exec_eq_next, effectOf, sendWrite, busWrites_eq_sends, busRead_eq_reads, writeEchoCheck_eq_echoed,
      writeFrame_eq_frame4, putWriteFrame_eq_withWriteFrame]
    rfl
  · rw [exec_eq_next, effectOf, sendWrite, busWrites_busRead_of_returns, writeEchoCheck_eq_echoed,
      writeFrame_eq_frame4, putWriteFrame_eq_withWriteFrame]
    · rfl
    · exact hb

/-! FC_SEND_WRITE_NEXT. -/

theorem sendWriteNext_of_ne_ready {s : State} (o : Oracle) (d : Byte) (h : s.wph ≠ .ready) :
    sendWriteNext o d s = returns 0x03 0x00 s := by
  rw [sendWriteNext, if_neg h, finish_eSeq_eq_returns]

theorem sendWriteNext_of_ready {s : State} {w : Word16} (o : Oracle) (d : Byte) (h : s.wph = .ready)
    (hw : s.waddr = some w) :
    sendWriteNext o d s =
      busWrites o [d] { withWriteFrame (w + 1) d s with waddr := some (w + 1), wph := .idle } fun u =>
        busRead o u fun obs u =>
          writeEchoCheck (crc8 u.params.crc8 (wrNextBytes u.params.wrNextScope (w + 1) d)) obs u := by
  rw [sendWriteNext, if_pos h, hw, readVal_some, putWriteFrame_eq_withWriteFrame]
  rfl

/-- Settles O17: outside READY the command is refused; in READY it is the frame of the next address put, one byte sent and
its echo compared. -/
theorem sendWriteNextContinuesTheSequence : Obligations.SendWriteNextContinuesTheSequence := by
  unfold Obligations.SendWriteNextContinuesTheSequence
  refine ⟨decode_word_fcSendWriteNext, fun s d h => ?_, fun s d w h hw => ?_, fun s d w h hw hb => ?_,
    fun a d => ⟨writeFrame_eq_frame4 a d, rfl⟩, by decide⟩
  · rw [exec_eq_next, effectOf, sendWriteNext_of_ne_ready _ d h]
  · simp only [exec_eq_next, effectOf, sendWriteNext_of_ready _ d h hw, busWrites_eq_sends, busRead_eq_reads,
      writeEchoCheck_eq_echoed]
  · rw [exec_eq_next, effectOf, sendWriteNext_of_ready _ d h hw, busWrites_busRead_of_returns,
      writeEchoCheck_eq_echoed]
    · rfl
    · exact hb

/-! FC_READBACK. -/

theorem readback_of_ne_awaitRb {s : State} (o : Oracle) (d : Byte) (h : s.wph ≠ .awaitRb) :
    readback o d s = returns 0x03 0x00 s := by
  rw [readback, if_neg h, finish_eSeq_eq_returns]

theorem readback_of_awaitRb {s : State} (o : Oracle) (d : Byte) (h : s.wph = .awaitRb) :
    readback o d s = busRead o s fun obs u => readbackCheck d obs u := by
  rw [readback, if_pos h]

/-- Settles O18: outside AWAIT_RB the command is refused; in AWAIT_RB it is a byte read and compared. -/
theorem readbackComparesWithTheRequestedByte : Obligations.ReadbackComparesWithTheRequestedByte := by
  unfold Obligations.ReadbackComparesWithTheRequestedByte
  refine ⟨decode_word_fcReadback, fun s d h => ?_, fun s d h => ?_, fun s d h hb => ?_⟩
  · rw [exec_eq_next, effectOf, readback_of_ne_awaitRb _ d h]
  · rw [exec_eq_next, effectOf, readback_of_awaitRb _ d h, busRead_eq_reads]
    rfl
  · rw [exec_eq_next, effectOf, readback_of_awaitRb _ d h, busRead_of_returns hb]
    rfl

end Sys2Proof.Proofs
end

section
/-! PROOF. What every end of a command does to the write phase and the write address (42_frame_codec.md R129, R132), and what
the ends of the send commands leave in T, EXP and OBS (R130, R133). -/

namespace Sys2Proof.Proofs
open Sys2Proof Sys2Proof.Machine Sys2Proof.Claims

/-- A command that finishes leaves WPH as the table of R129 says; one that does not leaves it, or has set it to IDLE before a
frame byte stalled. -/
theorem wph_cases_of_ends {i : Instr} {s t : State} (h : Ends i s t) :
    (t.pc = s.pc + 1 ∧ t.wph = phaseAfter s.wph i t.err) ∨
    (t.pc = s.pc ∧ (t.wph = s.wph ∨ (t.stalled = true ∧ t.wph = .idle))) := by
  cases h with
  | sendReadStall | sendWriteStall | sendWriteNextStall => exact .inr ⟨rfl, .inr ⟨rfl, rfl⟩⟩
  -- The fault writes FAULTED alone.
  | checkIdNoValue | validateNoValue | validateBusNoValue | sendWriteNextNoValue | txWriteBytesNoValue | fbRdNoValue
  | regRdNoValue => exact .inr ⟨rfl, .inl rfl⟩
  -- The other commands write no register before a stall.
  | validateBusStall | readbackStall | txResetStall | txWriteBitStall | txReadBitStall | txWriteByteStall
  | txReadByteStall | txWriteBytesStall | txSkipStall | txSearchStall => exact .inr ⟨rfl, .inl rfl⟩
  | _ => exact .inl ⟨rfl, rfl⟩

/-- Settles O19, by the cases of how a command can end. -/
theorem writePhaseFollowsItsTable : Obligations.WritePhaseFollowsItsTable := by
  unfold Obligations.WritePhaseFollowsItsTable
  refine ⟨fun i s t h hpc => ?_, fun i s t h hpc => ?_, fun s t w e hw hd h => ?_, rfl⟩
  · obtain ⟨-, hwph⟩ | ⟨hstay, -⟩ := wph_cases_of_ends (ends_of_exec h)
    · exact hwph
    · omega
  · obtain ⟨hadvance, -⟩ | ⟨-, hwph⟩ := wph_cases_of_ends (ends_of_exec h)
    · omega
    · exact hwph
  · rw [eq_finish_of_step_of_decode_error hw hd h, finish_wph]

/-! The write address. -/

/-- A command closes the sequence, or is one of the two that write WADDR and has written it, or leaves WADDR and opens no
sequence from IDLE. -/
theorem waddr_cases_of_ends {i : Instr} {s t : State} (h : Ends i s t) :
    t.wph = .idle ∨ (sendsWrite i = true ∧ t.waddr ≠ none) ∨
      (t.waddr = s.waddr ∧ (s.wph = .idle → t.wph = .idle)) := by
  cases h with
  | sendWriteMatch | sendWriteNextMatch => exact .inr (.inl ⟨rfl, nofun⟩)
  -- READY is entered from AWAIT_RB, not from IDLE.
  | readbackMatch s d b hawait => exact .inr (.inr ⟨rfl, fun hidle => nomatch hawait.symm.trans hidle⟩)
  | checkIdMismatch | validateMismatch | validateBusMismatch | readbackMismatch | sendReadMismatch | sendWriteMismatch
  | sendWriteNextMismatch => exact .inl rfl
  | sendReadStall | sendReadMatch | sendWriteStall | sendWriteNextStall | txReset | txSearchFound | txSearchNone =>
    exact .inl rfl
  | _ => exact .inr (.inr ⟨rfl, id⟩)

/-- The invariant of R132 is kept by every end of every command. -/
theorem waddr_ne_none_of_ends {i : Instr} {s t : State} (h : Ends i s t) (hs : s.wph ≠ .idle → s.waddr ≠ none)
    (ht : t.wph ≠ .idle) : t.waddr ≠ none := by
  obtain hidle | ⟨-, hwritten⟩ | ⟨hwaddr, hidle⟩ := waddr_cases_of_ends h
  · exact absurd hidle ht
  · exact hwritten
  · rw [hwaddr]
    exact hs (mt hidle ht)

/-- With the invariant FC_SEND_WRITE_NEXT always has an address to count on from. -/
theorem faulted_eq_of_ends_fcSendWriteNext {d : Byte} {s t : State} (h : Ends (.fcSendWriteNext d) s t)
    (hs : s.wph ≠ .idle → s.waddr ≠ none) : t.faulted = s.faulted := by
  cases h with
  | sendWriteNextNoValue s d hready hnone => exact absurd hnone (hs (by simp [hready]))
  | _ => rfl

/-- Settles O23: every end of a command keeps the invariant, and an illegal command leaves both registers. -/
theorem openWritePhaseHasAWriteAddress : Obligations.OpenWritePhaseHasAWriteAddress := by
  unfold Obligations.OpenWritePhaseHasAWriteAddress
  refine ⟨fun h => absurd rfl h, fun s t hs h => ?_, fun i s t h hs ht => ?_, fun d s t hs h => ?_⟩
  · obtain ⟨-, w, -, ⟨i, -, rfl⟩ | ⟨e, -, rfl⟩⟩ := step_cases h
    · exact waddr_ne_none_of_ends (effectOf_ends _ i s) hs
    · exact hs
  · obtain hidle | hwritten | ⟨-, hidle⟩ := waddr_cases_of_ends (ends_of_exec h)
    · exact absurd hidle ht
    · exact hwritten
    · exact absurd (hidle hs) ht
  · exact faulted_eq_of_ends_fcSendWriteNext (ends_of_exec h) hs

/-! The echo. -/

/-- From `s` to `t` the bytes `sent` were written and one byte read, with nothing between; OBS is the byte read and EXP the CRC
of the bytes `covered`. -/
def EchoChecked (s t : State) (sent covered : List Byte) : Prop :=
  ∃ obs, t.trace = s.trace ++ sent.map .write ++ [.read obs] ∧ t.obs = some obs ∧
    t.exp = some (crc8 s.params.crc8 covered)

section
variable {s t : State} (hpc : t.pc = s.pc + 1)
include hpc

theorem echoChecked_of_ends_fcSendRead {a : Word16} (h : Ends (.fcSendRead a) s t) :
    EchoChecked s t (readFrame a) (readFrame a) := by
  cases h with
  | sendReadStall => simp at hpc
  | sendReadMatch s a b => exact ⟨b, rfl, rfl, rfl⟩
  | sendReadMismatch s a b => exact ⟨b, rfl, rfl, rfl⟩

theorem echoChecked_of_ends_fcSendWrite {a : Word16} {d : Byte} (h : Ends (.fcSendWrite a d) s t) :
    EchoChecked s t (writeFrame a d) (writeFrame a d) := by
  cases h with
  | sendWriteStall => simp at hpc
  | sendWriteMatch s a d b => exact ⟨b, rfl, rfl, rfl⟩
  | sendWriteMismatch s a d b => exact ⟨b, rfl, rfl, rfl⟩

theorem echoChecked_of_ends_fcSendWriteNext {d : Byte} {w : Word16} (h : Ends (.fcSendWriteNext d) s t)
    (hready : s.wph = .ready) (hwaddr : s.waddr = some w) :
    EchoChecked s t [d] (wrNextBytes s.params.wrNextScope (w + 1) d) := by
  cases h with
  | sendWriteNextSeq s d hne => exact absurd hready hne
  | sendWriteNextNoValue | sendWriteNextStall => simp at hpc
  | sendWriteNextMatch s d w' b _ hw' | sendWriteNextMismatch s d w' b _ hw' =>
    obtain rfl : w' = w := Option.some.inj (hw'.symm.trans hwaddr)
    exact ⟨b, rfl, rfl, rfl⟩

end

/-- Settles O20, by the ends of the three send commands. -/
theorem echoIsReadRightAfterTheBytesItCovers : Obligations.EchoIsReadRightAfterTheBytesItCovers := by
  unfold Obligations.EchoIsReadRightAfterTheBytesItCovers
  refine ⟨fun i s t h hpc hi => ?_, fun d s t w h hpc hready hwaddr => ?_⟩
  · obtain ⟨a, rfl⟩ | ⟨a, d, rfl⟩ := hi
    · obtain ⟨obs, hecho⟩ := echoChecked_of_ends_fcSendRead hpc (ends_of_exec h)
      exact ⟨readFrame a, obs, List.cons_ne_nil _ _, hecho⟩
    · obtain ⟨obs, hecho⟩ := echoChecked_of_ends_fcSendWrite hpc (ends_of_exec h)
      exact ⟨writeFrame a d, obs, List.cons_ne_nil _ _, hecho⟩
  · obtain ⟨obs, htrace, hobs, hexp⟩ := echoChecked_of_ends_fcSendWriteNext hpc (ends_of_exec h) hready hwaddr
    exact ⟨obs, htrace, hobs, hexp, fun hscope => by rw [hexp, hscope, wrNextBytes]⟩

end Sys2Proof.Proofs
end

section
/-! PROOF. The single-wire transceiver (43_transceiver.md R160-R168). All but TX_WRITE_BYTES and TX_RESET_SEARCH are one bus
transaction, which stalls or lets the rest of the command run: one lemma says so, and each command instantiates it. -/

namespace Sys2Proof.Proofs
open Sys2Proof Sys2Proof.Machine Sys2Proof.Claims

/-! The words. -/

@[simp] theorem dBit_word (op : Byte) (a : Word16) (d : Byte) : dBit (word op a d) = d.getLsbD 0 := dBit_packWord op a d

theorem decode_word_txReset (a : Word16) (d : Byte) : decode (word 0x30 a d) = .ok .txReset := by
  simp [decode]

theorem decode_word_txWriteBit (a : Word16) (d : Byte) :
    decode (word 0x31 a d) = .ok (.txWriteBit (d.getLsbD 0)) := by
  simp [decode]

theorem decode_word_txReadBit (a : Word16) (d : Byte) : decode (word 0x32 a d) = .ok .txReadBit := by
  simp [decode]

theorem decode_word_txWriteByte (a : Word16) (d : Byte) : decode (word 0x33 a d) = .ok (.txWriteByte d) := by
  simp [decode]

theorem decode_word_txReadByte (a : Word16) (d : Byte) : decode (word 0x34 a d) = .ok .txReadByte := by
  simp [decode]

theorem decode_word_txWriteBytes (a : Word16) (d : Byte) : decode (word 0x35 a d) = .ok (.txWriteBytes d) := by
  simp [decode]

theorem decode_word_txSkip (a : Word16) (d : Byte) : decode (word 0x36 a d) = .ok .txSkip := by
  simp [decode]

theorem decode_word_txSearch (a : Word16) (d : Byte) : decode (word 0x37 a d) = .ok .txSearch := by
  simp [decode]

theorem decode_word_txResetSearch (a : Word16) (d : Byte) : decode (word 0x38 a d) = .ok .txResetSearch := by
  simp [decode]

/-! The commands of one bus transaction. -/

/-- The obligations' two clauses of a command that is one bus transaction `op` and ends in `t` when it does not stall. For each
such command the hypothesis holds by computation: its effect is `busDo` of `op`, whose rest answers `t`. -/
theorem exec_of_transaction {i : Instr} {op : BusOp} {s t : State}
    (h : effectOf Config.oracle i s = if stalls s op then stuck s else t) :
    exec i s = .next (if stalls s op then stuck s else t) ∧
      (s.params.busAlwaysReturns = true → exec i s = .next t) := by
  rw [exec_eq_next, h]
  refine ⟨rfl, fun hb => ?_⟩
  have hstalls : stalls s op = false := busStalls_of_returns Config.oracle op hb
  simp [hstalls]

/-- Settles O24: TX_RESET is one bus reset, and that it alone clears DIRTY is a clause of R36. -/
theorem txResetReportsPresence : Obligations.TxResetReportsPresence := by
  unfold Obligations.TxResetReportsPresence
  obtain ⟨-, honlyReset, -⟩ := dirtyIsAReportOnly
  exact ⟨decode_word_txReset, fun s => exec_of_transaction rfl, honlyReset⟩

/-- Settles O25: TX_WRITE_BIT is one bit write. -/
theorem txWriteBitWritesBitZero : Obligations.TxWriteBitWritesBitZero := by
  unfold Obligations.TxWriteBitWritesBitZero
  exact ⟨decode_word_txWriteBit, fun s v => exec_of_transaction rfl⟩

/-- Settles O26: TX_READ_BIT is one bit read. -/
theorem txReadBitReturnsTheBit : Obligations.TxReadBitReturnsTheBit := by
  unfold Obligations.TxReadBitReturnsTheBit
  exact ⟨decode_word_txReadBit, fun s => exec_of_transaction rfl⟩

/-- Settles O27: TX_WRITE_BYTE is one byte write. -/
theorem txWriteByteWritesTheByte : Obligations.TxWriteByteWritesTheByte := by
  unfold Obligations.TxWriteByteWritesTheByte
  exact ⟨decode_word_txWriteByte, fun s d => exec_of_transaction rfl⟩

/-- Settles O28: TX_READ_BYTE is one byte read. -/
theorem txReadByteReturnsTheByte : Obligations.TxReadByteReturnsTheByte := by
  unfold Obligations.TxReadByteReturnsTheByte
  exact ⟨decode_word_txReadByte, fun s => exec_of_transaction rfl⟩

/-- TX_SKIP is TX_WRITE_BYTE of the byte SKIP_ROM_CMD. -/
theorem exec_txSkip (s : State) : exec .txSkip s = exec (.txWriteByte s.params.skipRom) s := rfl

/-- Settles O30: TX_SKIP is one byte write, of SKIP_ROM_CMD. -/
theorem txSkipWritesTheSkipByte : Obligations.TxSkipWritesTheSkipByte := by
  unfold Obligations.TxSkipWritesTheSkipByte
  refine ⟨decode_word_txSkip, fun s => exec_of_transaction rfl, rfl, fun s hskip => ?_⟩
  rw [exec_txSkip, hskip]

theorem effectOf_txSearch (s : State) :
    effectOf Config.oracle .txSearch s = if stalls s .search then stuck s
      else searchResult (Config.oracle.search s.trace) (logEvent (.search (Config.oracle.search s.trace)) s) := rfl

/-- Settles O31: TX_SEARCH is one search, and its answer is an identifier or none. -/
theorem txSearchTakesOneSearchStep : Obligations.TxSearchTakesOneSearchStep := by
  unfold Obligations.TxSearchTakesOneSearchStep
  refine ⟨decode_word_txSearch, fun s => exec_of_transaction ?_⟩
  rw [effectOf_txSearch]
  cases Config.oracle.search s.trace with
  | some ident => rfl
  | none => rfl

/-! The commands of another shape. -/

/-- Settles O32: TX_RESET_SEARCH makes no bus transaction, so it ends in one way. -/
theorem txResetSearchMarksTheTrace : Obligations.TxResetSearchMarksTheTrace := by
  unfold Obligations.TxResetSearchMarksTheTrace
  refine ⟨decode_word_txResetSearch, fun s => ?_⟩
  rw [exec_eq_next, effectOf, finish_eNone_eq_returns, logEvent]

section
variable {s : State} {len : Byte} (o : Oracle)

theorem effectOf_txWriteBytes_of_gt (hlen : 8 < len.toNat) :
    effectOf o (.txWriteBytes len) s = returns 0x04 0x00 s := by
  rw [effectOf, txWriteBytes, (lenOperand_eq_none_iff len).mpr hlen]
  rfl

theorem effectOf_txWriteBytes_of_unwritten (hlen : len.toNat ≤ 8) (h : none ∈ s.fb.toList.take len.toNat) :
    effectOf o (.txWriteBytes len) s = faults s := by
  have hop : lenOperand len = some ⟨len.toNat, by omega⟩ := (lenOperand_eq_some_iff len _).mpr rfl
  rw [effectOf, txWriteBytes, hop]
  simp only [(fbPrefix_eq_none_iff _ s).mpr h, readVal_none, raiseUnwritten_eq_faults]

end

/-- Settles O29: the length is above 8, or FB[0..len-1] has a cell without a byte, or it is the list of bytes sent. -/
theorem txWriteBytesWritesTheBufferPrefix : Obligations.TxWriteBytesWritesTheBufferPrefix := by
  unfold Obligations.TxWriteBytesWritesTheBufferPrefix
  refine ⟨decode_word_txWriteBytes, fun s d hlen => ?_, fun s d hlen h => ?_, fun s d bs hlen h => ?_,
    fun s d bs hlen h hb => ?_⟩
  · rw [exec_eq_next, effectOf_txWriteBytes_of_gt _ hlen]
  · rw [exec_eq_next, effectOf_txWriteBytes_of_unwritten _ hlen h]
  · rw [exec_eq_next, effectOf_txWriteBytes_of_holds _ hlen h, busWrites_eq_sends]
    rfl
  · rw [exec_eq_next, effectOf_txWriteBytes_of_holds _ hlen h, busWrites_of_returns bs hb, finish_eNone_eq_returns]

end Sys2Proof.Proofs
end

section
/-! PROOF. Host access (44_host_access.md R190-R194). Each command checks its operand first: in range its effect is one
equation, out of range it is refused with E_OPERAND. -/

namespace Sys2Proof.Proofs
open Sys2Proof Sys2Proof.Machine Sys2Proof.Claims

theorem finish_eOperand_eq_returns (s : State) : finish .eOperand 0x00 s = returns 0x04 0x00 s := rfl

/-! The words. -/

theorem decode_word_nop (a : Word16) (d : Byte) : decode (word 0x00 a d) = .ok .nop := by
  simp [decode]

theorem decode_word_fbWr (a : Word16) (d : Byte) : decode (word 0x40 a d) = .ok (.fbWr a d) := by
  simp [decode]

theorem decode_word_fbRd (a : Word16) (d : Byte) : decode (word 0x41 a d) = .ok (.fbRd a) := by
  simp [decode]

theorem decode_word_setLen (a : Word16) (d : Byte) : decode (word 0x42 a d) = .ok (.setLen d) := by
  simp [decode]

theorem decode_word_regRd (a : Word16) (d : Byte) : decode (word 0x43 a d) = .ok (.regRd d) := by
  simp [decode]

/-! NOP. -/

/-- Settles O1: NOP ends in one way. -/
theorem nopDoesNothingExceptFinish : Obligations.NopDoesNothingExceptFinish := by
  unfold Obligations.NopDoesNothingExceptFinish
  refine ⟨decode_word_nop, fun s => ?_⟩
  rw [exec_eq_next, effectOf, finish_eNone_eq_returns]

/-! FB_WR and FB_RD. -/

section
variable {s : State} {a : Word16} (o : Oracle)

theorem effectOf_fbWr_of_lt (d : Byte) (h : a.toNat < 8) :
    effectOf o (.fbWr a d) s = returns 0x00 0x00 { s with fb := s.fb.set a.toNat (some d) h } := by
  have hop : idxOperand a = some ⟨a.toNat, h⟩ := (idxOperand_eq_some_iff a _).mpr rfl
  simp only [effectOf, hop, finish_eNone_eq_returns]

theorem effectOf_fbWr_of_ge (d : Byte) (h : 8 ≤ a.toNat) : effectOf o (.fbWr a d) s = returns 0x04 0x00 s := by
  simp only [effectOf, (idxOperand_eq_none_iff a).mpr h, finish_eOperand_eq_returns]

/-- A cell that exists is read, and its value returned if it holds one. -/
theorem effectOf_fbRd_of_cell {c : Option Byte} (h : s.fb.toList[a.toNat]? = some c) :
    effectOf o (.fbRd a) s = readVal c s fun b => returns 0x00 b s := by
  obtain ⟨hlt, hc⟩ := List.getElem?_eq_some_iff.mp h
  rw [Vector.length_toList] at hlt
  have hop : idxOperand a = some ⟨a.toNat, hlt⟩ := (idxOperand_eq_some_iff a _).mpr rfl
  simp only [effectOf, hop, ← hc, Vector.getElem_toList, finish_eNone_eq_returns]

theorem effectOf_fbRd_of_ge (h : 8 ≤ a.toNat) : effectOf o (.fbRd a) s = returns 0x04 0x00 s := by
  simp only [effectOf, (idxOperand_eq_none_iff a).mpr h, finish_eOperand_eq_returns]

end

/-- In READY every end of FC_SEND_WRITE_NEXT, a stall too, comes after the frame of the next address was put in FB. -/
theorem fb_eq_of_ends_fcSendWriteNext {s t : State} {d : Byte} {w : Word16} (h : Ends (.fcSendWriteNext d) s t)
    (hready : s.wph = .ready) (hwaddr : s.waddr = some w) : t.fb = (putWriteFrame (w + 1) d s).fb := by
  cases h with
  | sendWriteNextSeq s d hne => exact absurd hready hne
  | sendWriteNextNoValue s d _ hnone => cases hnone.symm.trans hwaddr
  | sendWriteNextStall s d w' _ _ hw' | sendWriteNextMatch s d w' _ _ hw' | sendWriteNextMismatch s d w' _ _ hw' =>
    obtain rfl : w' = w := Option.some.inj (hw'.symm.trans hwaddr)
    rfl

/-- Settles O2: the index is below 8 or not; FC_SEND_WRITE_NEXT overwrites FB[0..3] whatever they held. -/
theorem fbWrWritesOneByteOrRefuses : Obligations.FbWrWritesOneByteOrRefuses := by
  unfold Obligations.FbWrWritesOneByteOrRefuses
  refine ⟨decode_word_fbWr, fun s a d h => ?_, fun s a d h => ?_, fun s t fb d w hready hwaddr h => ?_⟩
  · rw [exec_eq_next, effectOf_fbWr_of_lt _ d h]
  · rw [exec_eq_next, effectOf_fbWr_of_ge _ d h]
  · exact holds_of_fb_eq_putWriteFrame (fb_eq_of_ends_fcSendWriteNext (ends_of_exec h) hready hwaddr)

/-- Settles O3: the cell exists and holds a value, exists and holds none, or does not exist. -/
theorem fbRdReadsOneByteOrStops : Obligations.FbRdReadsOneByteOrStops := by
  unfold Obligations.FbRdReadsOneByteOrStops
  refine ⟨decode_word_fbRd, fun s a b h => ?_, fun s a h => ?_, fun s a h => ?_, by decide⟩
  · rw [exec_eq_next, effectOf_fbRd_of_cell _ h, readVal_some]
  · rw [exec_eq_next, effectOf_fbRd_of_cell _ h, readVal_none, raiseUnwritten_eq_faults]
  · rw [exec_eq_next, effectOf_fbRd_of_ge _ h]

/-! SET_LEN. -/

section
variable {s : State} {len : Byte} (o : Oracle)

theorem effectOf_setLen_of_lt (h : len.toNat < 9) :
    effectOf o (.setLen len) s = returns 0x00 len { s with flen := ⟨len.toNat, h⟩ } := by
  have hop : lenOperand len = some ⟨len.toNat, h⟩ := (lenOperand_eq_some_iff len _).mpr rfl
  simp only [effectOf, hop, finish_eNone_eq_returns]

theorem effectOf_setLen_of_gt (h : 8 < len.toNat) : effectOf o (.setLen len) s = returns 0x04 0x00 s := by
  simp only [effectOf, (lenOperand_eq_none_iff len).mpr h, finish_eOperand_eq_returns]

end

/-- Settles O4: the length is at most 8 or not; the two validations fault as R122 and R123 have it. -/
theorem setLenSetsTheFrameLengthOrRefuses : Obligations.SetLenSetsTheFrameLengthOrRefuses := by
  unfold Obligations.SetLenSetsTheFrameLengthOrRefuses
  refine ⟨decode_word_setLen, fun s d h => ?_, fun s d h => ?_, fun s d h => ⟨?_, ?_⟩⟩
  · rw [exec_eq_next, effectOf_setLen_of_lt _ h]
  · rw [exec_eq_next, effectOf_setLen_of_gt _ h]
  · rw [exec_eq_next, effectOf_fcValidate_of_unwritten _ d h]
  · rw [exec_eq_next, effectOf, validateBus_of_unwritten _ h]

/-! REG_RD. -/

/-- Bits shifted into place and joined by OR are the byte written out from bit 7 down. -/
theorem or_bitByte_shiftLeft_eq_append : ∀ b₀ b₁ b₂ b₃ b₄ b₅ b₆ b₇ : Bool,
    bitByte b₀ ||| bitByte b₁ <<< 1 ||| bitByte b₂ <<< 2 ||| bitByte b₃ <<< 3 ||| bitByte b₄ <<< 4 |||
        bitByte b₅ <<< 5 ||| bitByte b₆ <<< 6 ||| bitByte b₇ <<< 7 =
      BitVec.ofBool b₇ ++ BitVec.ofBool b₆ ++ BitVec.ofBool b₅ ++ BitVec.ofBool b₄ ++ BitVec.ofBool b₃ ++
        BitVec.ofBool b₂ ++ BitVec.ofBool b₁ ++ BitVec.ofBool b₀ := by
  decide

theorem statusByte_eq_status (s : State) : statusByte s = status s := or_bitByte_shiftLeft_eq_append ..

section
variable {s : State} {sel : Byte} {r : Selector}

theorem exec_regRd_of_some {v : Byte} (hsel : selOperand sel = some r) (hv : readReg r s = some v) :
    exec (.regRd sel) s = .next (returns 0x00 v s) := by
  simp only [exec_eq_next, effectOf, hsel, hv, readVal_some, finish_eNone_eq_returns]

theorem exec_regRd_of_none (hsel : selOperand sel = some r) (hv : readReg r s = none) :
    exec (.regRd sel) s = .next (faults s) := by
  simp only [exec_eq_next, effectOf, hsel, hv, readVal_none, raiseUnwritten_eq_faults]

theorem exec_regRd_of_gt (h : 0x09 < sel.toNat) : exec (.regRd sel) s = .next (returns 0x04 0x00 s) := by
  simp only [exec_eq_next, effectOf, (selOperand_eq_none_iff sel).mpr h, finish_eOperand_eq_returns]

theorem readReg_status (s : State) : readReg .status s = some (status s) := by
  rw [readReg, statusByte_eq_status]

theorem readReg_waddrLo {w : Word16} (h : s.waddr = some w) : readReg .waddrLo s = some (lo w) := by
  rw [readReg, h, Option.map_some, addrLo_eq_lo]

theorem readReg_waddrHi {w : Word16} (h : s.waddr = some w) : readReg .waddrHi s = some (hi w) := by
  rw [readReg, h, Option.map_some, addrHi_eq_hi]

theorem readReg_waddr_none (h : s.waddr = none) : readReg .waddrLo s = none ∧ readReg .waddrHi s = none := by
  simp only [readReg, h, Option.map_none, and_self]

end

/-- Settles O5: a selector names a register that holds a value, one that holds none, or no register. -/
theorem regRdReturnsTheSelectedRegister : Obligations.RegRdReturnsTheSelectedRegister := by
  unfold Obligations.RegRdReturnsTheSelectedRegister
  refine ⟨decode_word_regRd, ?status, ?err, ?crc, ?exp, ?obs, ?rxb, ?waddrLo, ?waddrHi, ?flen, ?wph, ?expNone, ?obsNone,
    ?rxbNone, ?waddrNone, fun s d h => exec_regRd_of_gt h⟩
  case status => exact fun s => exec_regRd_of_some rfl (readReg_status s)
  case err => exact fun s => exec_regRd_of_some (r := .err) rfl rfl
  case crc => exact fun s => exec_regRd_of_some (r := .crc) rfl rfl
  case exp => exact fun s v h => exec_regRd_of_some (r := .exp) rfl h
  case obs => exact fun s v h => exec_regRd_of_some (r := .obs) rfl h
  case rxb => exact fun s v h => exec_regRd_of_some (r := .rxb) rfl h
  case waddrLo => exact fun s w h => exec_regRd_of_some rfl (readReg_waddrLo h)
  case waddrHi => exact fun s w h => exec_regRd_of_some rfl (readReg_waddrHi h)
  case flen => exact fun s => exec_regRd_of_some (r := .flen) rfl rfl
  case wph => exact fun s => exec_regRd_of_some (r := .wph) rfl rfl
  case expNone => exact fun s h => exec_regRd_of_none (r := .exp) rfl h
  case obsNone => exact fun s h => exec_regRd_of_none (r := .obs) rfl h
  case rxbNone => exact fun s h => exec_regRd_of_none (r := .rxb) rfl h
  case waddrNone =>
    intro s h
    obtain ⟨hlo, hhi⟩ := readReg_waddr_none h
    exact ⟨exec_regRd_of_none rfl hlo, exec_regRd_of_none rfl hhi⟩

end Sys2Proof.Proofs
end

section
/-! PROOF. The fault UNWRITTEN (60_exceptions.md R216). A command reads no value exactly when an operand it fetches is none: one
equivalence per command that can fault. Every end of a command is then the fault alone, or leaves FAULTED. -/

namespace Sys2Proof.Proofs
open Sys2Proof Sys2Proof.Machine Sys2Proof.Safety Sys2Proof.Claims

/-! When a command reads no value, in the operands that the machine fetches. -/

section
variable (s : State)

@[simp] theorem readsNoValue_crcCheckId_iff :
    readsNoValue .crcCheckId s ↔ fbPrefix 7 s = none ∨ s.fb[7] = none := by
  rw [readsNoValue, fb_toList_eq_take_append, List.mem_append, List.mem_singleton, fbPrefix_eq_none_iff,
    eq_comm (a := none)]

@[simp] theorem readsNoValue_fcValidate_iff (d : Byte) :
    readsNoValue (.fcValidate d) s ↔ fbPrefix s.flen.val s = none := (fbPrefix_eq_none_iff _ s).symm

@[simp] theorem readsNoValue_fcValidateBus_iff :
    readsNoValue .fcValidateBus s ↔ fbPrefix s.flen.val s = none := (fbPrefix_eq_none_iff _ s).symm

@[simp] theorem readsNoValue_txWriteBytes_iff (len : Byte) :
    readsNoValue (.txWriteBytes len) s ↔ ∃ n, lenOperand len = some n ∧ fbPrefix n.val s = none := by
  simp only [readsNoValue, lenOperand_eq_some_iff, fbPrefix_eq_none_iff]
  constructor
  · rintro ⟨hle, hnone⟩
    exact ⟨⟨len.toNat, by omega⟩, rfl, hnone⟩
  · rintro ⟨n, hn, hnone⟩
    exact ⟨by omega, hn ▸ hnone⟩

@[simp] theorem readsNoValue_fbRd_iff (idx : Word16) :
    readsNoValue (.fbRd idx) s ↔ ∃ i : Fin 8, idxOperand idx = some i ∧ s.fb[i.val] = none := by
  simp only [readsNoValue, idxOperand_eq_some_iff]
  constructor
  · rintro ⟨hlt, hnone⟩
    exact ⟨⟨idx.toNat, hlt⟩, rfl, by simpa [hlt] using hnone⟩
  · rintro ⟨i, hi, hnone⟩
    simp [hi, hnone]

/-- The selector code of a register (10_state.md R41). -/
def selectorCode : Selector → Byte
  | .status => 0x00
  | .err => 0x01
  | .crc => 0x02
  | .exp => 0x03
  | .obs => 0x04
  | .rxb => 0x05
  | .waddrLo => 0x06
  | .waddrHi => 0x07
  | .flen => 0x08
  | .wph => 0x09

theorem selOperand_eq_some_iff (sel : Byte) (r : Selector) : selOperand sel = some r ↔ sel = selectorCode r := by
  cases r <;> revert sel <;> decide

/-- Of the ten registers four can hold no value, the address register under two selectors. -/
@[simp] theorem readsNoValue_regRd_iff (sel : Byte) :
    readsNoValue (.regRd sel) s ↔ ∃ r, selOperand sel = some r ∧ readReg r s = none := by
  simp only [readsNoValue, selOperand_eq_some_iff]
  constructor
  · rintro (⟨rfl, h⟩ | ⟨rfl, h⟩ | ⟨rfl, h⟩ | ⟨rfl | rfl, h⟩)
    · exact ⟨.exp, rfl, h⟩
    · exact ⟨.obs, rfl, h⟩
    · exact ⟨.rxb, rfl, h⟩
    · exact ⟨.waddrLo, rfl, (readReg_waddr_none h).left⟩
    · exact ⟨.waddrHi, rfl, (readReg_waddr_none h).right⟩
  · rintro ⟨r, rfl, h⟩
    cases r with
    | exp | obs | rxb | waddrLo | waddrHi => simpa [selectorCode, readReg] using h
    | status | err | crc | flen | wph => simp [readReg] at h

end

/-! What a command and a step do to FAULTED. -/

/-- Where an open write phase has a write address, a command that reads no value ends in the fault alone, and any other leaves
FAULTED. -/
theorem faulted_cases_of_ends {i : Instr} {s t : State} (h : Ends i s t) (hs : s.wph ≠ .idle → s.waddr ≠ none) :
    (readsNoValue i s ∧ t = raiseUnwritten s) ∨ (¬ readsNoValue i s ∧ t.faulted = s.faulted) := by
  cases h with
  | checkIdNoValue s h => exact .inl ⟨(readsNoValue_crcCheckId_iff s).mpr h, rfl⟩
  | validateNoValue s d h => exact .inl ⟨(readsNoValue_fcValidate_iff s d).mpr h, rfl⟩
  | validateBusNoValue s h => exact .inl ⟨(readsNoValue_fcValidateBus_iff s).mpr h, rfl⟩
  | txWriteBytesNoValue s len n h hp => exact .inl ⟨(readsNoValue_txWriteBytes_iff s len).mpr ⟨n, h, hp⟩, rfl⟩
  | fbRdNoValue s idx i h hb => exact .inl ⟨(readsNoValue_fbRd_iff s idx).mpr ⟨i, h, hb⟩, rfl⟩
  | regRdNoValue s sel r h hv => exact .inl ⟨(readsNoValue_regRd_iff s sel).mpr ⟨r, h, hv⟩, rfl⟩
  -- READY without a write address is what the hypothesis shuts out.
  | sendWriteNextNoValue s d hready hnone => exact absurd hnone (hs (by simp [hready]))
  | checkIdMatch s bs b hp hb | checkIdMismatch s bs b hp hb => exact .inr ⟨by simp [hp, hb], rfl⟩
  | validateMatch s d bs hp | validateMismatch s d bs hp => exact .inr ⟨by simp [hp], rfl⟩
  | validateBusStall s bs hp | validateBusMatch s bs b hp | validateBusMismatch s bs b hp =>
    exact .inr ⟨by simp [hp], rfl⟩
  | txWriteBytesOperand s len h | fbRdOperand s idx h | regRdOperand s sel h => exact .inr ⟨by simp [h], rfl⟩
  | txWriteBytesStall s len n bs pre h hp | txWriteBytes s len n bs h hp => exact .inr ⟨by simp [h, hp], rfl⟩
  | fbRd s idx b i h hb => exact .inr ⟨by simp [h, hb], rfl⟩
  | regRd s sel r v h hv => exact .inr ⟨by simp [h, hv], rfl⟩
  | _ => exact .inr ⟨id, rfl⟩

/-- A step of a legal word was taken from a running block, and ended as its instruction can end. -/
theorem running_and_ends_of_step {s t : State} {w : CmdWord} {i : Instr} (hw : s.stream[s.pc]? = some w)
    (hd : decode w = .ok i) (h : step s = .next t) : Running s ∧ Ends i s t := by
  obtain ⟨hrun, w', hw', hends⟩ := step_cases h
  obtain rfl : w = w' := Option.some.inj (hw.symm.trans hw')
  obtain ⟨i', hi', rfl⟩ | ⟨e, he, -⟩ := hends
  · obtain rfl : i = i' := Except.ok.inj (hd.symm.trans hi')
    exact ⟨hrun, effectOf_ends _ i s⟩
  · cases hd.symm.trans he

theorem step_of_faulted {s : State} {k : FaultKind} {p : Nat} (h : s.faulted = some (k, p)) :
    step s = .fault (.faulted k p) := by
  simp [step, haltReason, h]

theorem not_ended_of_faulted {s : State} (h : s.faulted ≠ none) : ¬ Ended s := by
  rintro ⟨-, hnone, -⟩
  exact h hnone

/-- Settles O45: from a running block the ends of its command are the fault alone, when it reads no value, or FAULTED still
unset. -/
theorem unwrittenFaultIsPrecise : Obligations.UnwrittenFaultIsPrecise := by
  unfold Obligations.UnwrittenFaultIsPrecise
  rintro s t w i ⟨hwaddr, -⟩ h hw hd
  obtain ⟨⟨hrun, -⟩, hends⟩ := running_and_ends_of_step hw hd h
  obtain ⟨hreads, rfl⟩ | ⟨hreads, hkeep⟩ := faulted_cases_of_ends hends hwaddr
  · have hfault : (raiseUnwritten s).faulted ≠ none := nofun
    exact ⟨iff_of_true hfault hreads, fun _ => ⟨rfl, step_of_faulted rfl, not_ended_of_faulted hfault⟩⟩
  · have hnone : t.faulted = none := hkeep.trans hrun
    exact ⟨iff_of_false (not_not.mpr hnone) hreads, fun hfault => absurd hnone hfault⟩

end Sys2Proof.Proofs
end

section
/-! PROOF. The state after block reset (70_reset_and_hazards.md R240). -/

namespace Sys2Proof.Proofs
open Sys2Proof Sys2Proof.Machine

theorem reset_fb_eq_replicate : State.reset.fb = Vector.replicate 8 none := rfl

/-- 10_state.md R21: the frame buffer resets to a cell without a byte, eight times. -/
theorem reset_fb_getElem (i : Fin 8) : State.reset.fb[i] = none := by
  rw [reset_fb_eq_replicate, Fin.getElem_fin, Vector.getElem_replicate]

/-- Settles O38: no cell of FB holds a byte, and `State.reset` writes out the value of every other register. -/
theorem blockResetLeavesTheStatedValues : Obligations.BlockResetLeavesTheStatedValues := by
  unfold Obligations.BlockResetLeavesTheStatedValues
  exact ⟨reset_fb_getElem, rfl, rfl, rfl, rfl, rfl, rfl, rfl, rfl, rfl, rfl, rfl, rfl, rfl, rfl, rfl, rfl, rfl⟩

end Sys2Proof.Proofs
end

section
/-! PROOF. Decoding against encoding (30_encoding.md R70-R74): the word of an instruction is the word of its opcode and operands,
and the opcode map has been read once per opcode (the lemmas `decode_word_*`). -/

namespace Sys2Proof.Proofs
open Sys2Proof Sys2Proof.Machine Sys2Proof.Claims

theorem encode_eq_word (i : Instr) : encode i = word i.opcode i.aOperand i.dOperand := rfl

/-- The bit operand comes back from D[0] (R72). -/
theorem decode_encode_txWriteBit (v : Bool) : decode (encode (.txWriteBit v)) = .ok (.txWriteBit v) := by
  rw [encode_eq_word, Instr.opcode, decode_word_txWriteBit]
  cases v with
  | false => rfl
  | true => rfl

theorem decode_encode (i : Instr) : decode (encode i) = .ok i := by
  cases i with
  | nop => exact decode_word_nop 0 0
  | crcInit => exact decode_word_crcInit 0 0
  | crcUpdate d => exact decode_word_crcUpdate 0 d
  | crcCheckId => exact decode_word_crcCheckId 0 0
  | fcBuildRead a => exact decode_word_fcBuildRead a 0
  | fcBuildWrite a d => exact decode_word_fcBuildWrite a d
  | fcValidate d => exact decode_word_fcValidate 0 d
  | fcValidateBus => exact decode_word_fcValidateBus 0 0
  | fcSendRead a => exact decode_word_fcSendRead a 0
  | fcSendWrite a d => exact decode_word_fcSendWrite a d
  | fcSendWriteNext d => exact decode_word_fcSendWriteNext 0 d
  | fcReadback d => exact decode_word_fcReadback 0 d
  | txReset => exact decode_word_txReset 0 0
  | txWriteBit v => exact decode_encode_txWriteBit v
  | txReadBit => exact decode_word_txReadBit 0 0
  | txWriteByte d => exact decode_word_txWriteByte 0 d
  | txReadByte => exact decode_word_txReadByte 0 0
  | txWriteBytes len => exact decode_word_txWriteBytes 0 len
  | txSkip => exact decode_word_txSkip 0 0
  | txSearch => exact decode_word_txSearch 0 0
  | txResetSearch => exact decode_word_txResetSearch 0 0
  | fbWr idx d => exact decode_word_fbWr idx d
  | fbRd idx => exact decode_word_fbRd idx 0
  | setLen len => exact decode_word_setLen 0 len
  | regRd sel => exact decode_word_regRd 0 sel

/-- Settles O34, by the opcode of each instruction. -/
theorem decodeInvertsEncode : Obligations.DecodeInvertsEncode := by
  unfold Obligations.DecodeInvertsEncode
  exact decode_encode

/-- Settles O33: five of the words carry a mapped opcode, and 0x99 is in a gap of the map. -/
theorem writtenOutWordsDecode : Obligations.WrittenOutWordsDecode := by
  unfold Obligations.WrittenOutWordsDecode
  exact ⟨decode_word_nop 0 0, decode_word_fcSendWrite 0x0005 0xAB, decode_word_fbWr 7 0x7E,
    decode_word_txWriteBit 0 0x01, decode_word_crcUpdate 0 0x01, rfl⟩

end Sys2Proof.Proofs
end

section
/-! PROOF. Which states have a step (10_state.md R44, 60_exceptions.md R217, 70_reset_and_hazards.md R251), and that a command
always answers one. -/

namespace Sys2Proof.Proofs
open Sys2Proof Sys2Proof.Machine Sys2Proof.Safety Sys2Proof.Claims

theorem step_of_stalled {s : State} (hf : s.faulted = none) (hs : s.stalled = true) : step s = .fault .busStalled := by
  simp [step, haltReason, hf, hs]

theorem step_of_ended {s : State} (h : Ended s) : step s = .refused .noCommand := by
  obtain ⟨hpc, hrun⟩ := h
  simp [step, fetch, (haltReason_eq_none_iff s).mpr hrun, hpc]

theorem not_ended_of_stalled {s : State} (h : s.stalled = true) : ¬ Ended s := by
  rintro ⟨-, -, hs⟩
  cases h.symm.trans hs

/-- Settles O36: neither halt mark is set and the fetched word decodes. -/
theorem stepRunsTheDecodedInstruction : Obligations.StepRunsTheDecodedInstruction := by
  unfold Obligations.StepRunsTheDecodedInstruction
  rintro s w i ⟨hf, hs⟩ hw hd
  exact step_of_decode hf hs hw hd

/-- Settles O37: one halt mark, the other, and the end of the stream. -/
theorem haltedAndEndedRunsHaveNoStep : Obligations.HaltedAndEndedRunsHaveNoStep := by
  unfold Obligations.HaltedAndEndedRunsHaveNoStep
  exact ⟨fun _ _ _ => step_of_faulted, fun _ => step_of_stalled, fun _ => step_of_ended⟩

/-- Settles O49: the state that the command's effect ends in. -/
theorem everyCommandAnswersANextState : Obligations.EveryCommandAnswersANextState := by
  unfold Obligations.EveryCommandAnswersANextState
  exact fun i s => ⟨effectOf Config.oracle i s, exec_eq_next i s⟩

end Sys2Proof.Proofs
end

section
/-! PROOF. A command finishes or it does not (00_scope.md R16, 10_state.md R37): pc, ERR, the responses and the two halt marks
after every end, and the fields that no command writes. -/

namespace Sys2Proof.Proofs
open Sys2Proof Sys2Proof.Machine Sys2Proof.Safety Sys2Proof.Claims

/-- From `s` to `t` a command finished: one response more, ERR its code, and neither halt mark set. -/
structure Finished (s t : State) : Prop where
  pc : t.pc = s.pc + 1
  returned : ∃ e v, t.err = errByte e ∧ t.resps = s.resps ++ [response e v]
  faulted : t.faulted = s.faulted
  stalled : t.stalled = s.stalled

/-- From `s` to `t` a command did not finish: it ran into the fault, or into a stall of a bus that need not return. -/
structure Unfinished (s t : State) : Prop where
  pc : t.pc = s.pc
  err : t.err = s.err
  resps : t.resps = s.resps
  mark : (t.faulted ≠ none ∧ t.stalled = s.stalled) ∨
    (t.faulted = s.faulted ∧ t.stalled = true ∧ s.params.busAlwaysReturns = false)

theorem finish_finished (e : ErrCode) (v : Byte) (s : State) : Finished s (finish e v s) :=
  ⟨rfl, ⟨e, v, rfl, rfl⟩, rfl, rfl⟩

theorem finished_or_unfinished_of_ends {i : Instr} {s t : State} (h : Ends i s t) : Finished s t ∨ Unfinished s t := by
  cases h with
  | checkIdNoValue | validateNoValue | validateBusNoValue | sendWriteNextNoValue | txWriteBytesNoValue | fbRdNoValue
  | regRdNoValue => exact .inr ⟨rfl, rfl, rfl, .inl ⟨nofun, rfl⟩⟩
  | validateBusStall | sendReadStall | sendWriteStall | sendWriteNextStall | readbackStall | txResetStall
  | txWriteBitStall | txReadBitStall | txWriteByteStall | txReadByteStall | txWriteBytesStall | txSkipStall
  | txSearchStall =>
    have hb : s.params.busAlwaysReturns = false := ‹_›
    exact .inr ⟨rfl, rfl, rfl, .inr ⟨rfl, rfl, hb⟩⟩
  | _ => exact .inl ⟨rfl, ⟨_, _, rfl, rfl⟩, rfl, rfl⟩

/-- A step's command, legal or not, finishes or does not. -/
theorem finished_or_unfinished_of_step {s t : State} (h : step s = .next t) : Finished s t ∨ Unfinished s t := by
  obtain ⟨-, w, -, ⟨i, -, rfl⟩ | ⟨e, -, rfl⟩⟩ := step_cases h
  · exact finished_or_unfinished_of_ends (effectOf_ends _ i s)
  · exact .inl (finish_finished .eIllegal 0x00 s)

theorem Unfinished.halted {s t : State} (h : Unfinished s t) : Halted t := by
  rintro ⟨hf, hs⟩
  obtain ⟨hfault, -⟩ | ⟨-, hstall, -⟩ := h.mark
  · exact hfault hf
  · cases hstall.symm.trans hs

theorem Finished.running {s t : State} (h : Finished s t) (hs : Running s) : Running t :=
  ⟨h.faulted.trans hs.left, h.stalled.trans hs.right⟩

/-- Settles O39: a step is taken from a running block, and its command finishes or does not. -/
theorem pcAdvancesByOneWhenACommandFinishes : Obligations.PcAdvancesByOneWhenACommandFinishes := by
  unfold Obligations.PcAdvancesByOneWhenACommandFinishes
  refine ⟨fun s t h => ?_, rfl⟩
  obtain ⟨hrun, -⟩ := step_cases h
  obtain hfin | hunf := finished_or_unfinished_of_step h
  · obtain ⟨e, v, -, hresps⟩ := hfin.returned
    exact .inl ⟨hfin.pc, hfin.running hrun, _, hresps⟩
  · exact .inr ⟨hunf.pc, hunf.halted, hunf.resps⟩

/-- No command writes the parameters or the host's stream. -/
theorem params_stream_eq_of_ends {i : Instr} {s t : State} (h : Ends i s t) :
    t.params = s.params ∧ t.stream = s.stream := by
  cases h <;> exact ⟨rfl, rfl⟩

/-- Settles O48: no end of a command writes them, nor does an illegal one. -/
theorem stepLeavesStreamAndParameters : Obligations.StepLeavesStreamAndParameters := by
  unfold Obligations.StepLeavesStreamAndParameters
  intro s t h
  obtain ⟨-, w, -, ⟨i, -, rfl⟩ | ⟨e, -, rfl⟩⟩ := step_cases h
  · exact (params_stream_eq_of_ends (effectOf_ends _ i s)).symm
  · exact ⟨rfl, rfl⟩

end Sys2Proof.Proofs
end

section
/-! PROOF. RXB, PRES, FOUND and SEXH as the trace has them (10_state.md R24, R32, R33). One function says what an event does to
the four; a command appends events and leaves in the four what those events do. -/

namespace Sys2Proof.Proofs
open Sys2Proof Sys2Proof.Machine Sys2Proof.Safety

/-- The registers that record the bus. -/
structure BusRegs where
  rxb : Option Byte
  pres : Bool
  found : Bool
  sexh : Bool

/-- What an event leaves in them. -/
def BusRegs.observe (r : BusRegs) : BusEvent → BusRegs
  | .reset p => { r with pres := p }
  | .read b => { r with rxb := some b }
  | .search a => { r with found := a.isSome, sexh := a.isNone }
  | .searchReset => { r with sexh := false }
  | .write _ => r
  | .writeBit _ => r
  | .readBit _ => r

/-- What a state holds in them. -/
def busRegs (s : State) : BusRegs := ⟨s.rxb, s.pres, s.found, s.sexh⟩

/-- What a trace says that they hold. -/
def recordedBy (t : Trace) : BusRegs := ⟨lastRead t, lastPresence t, lastFound t, searchExhausted t⟩

theorem agreesWithTrace_iff (s : State) : AgreesWithTrace s ↔ busRegs s = recordedBy s.trace := by
  simp [AgreesWithTrace, busRegs, recordedBy]

theorem recordedBy_append_singleton (t : Trace) (e : BusEvent) : recordedBy (t ++ [e]) = (recordedBy t).observe e := by
  unfold recordedBy lastRead lastPresence lastFound searchExhausted
  simp only [List.foldl_append]
  cases e <;> rfl

theorem recordedBy_append (t es : Trace) : recordedBy (t ++ es) = es.foldl BusRegs.observe (recordedBy t) := by
  induction es generalizing t with
  | nil => simp
  | cons e es ih => rw [List.append_cons, ih, recordedBy_append_singleton, List.foldl_cons]

theorem foldl_observe_map_write (bs : List Byte) (r : BusRegs) : (bs.map .write).foldl BusRegs.observe r = r := by
  induction bs with
  | nil => rfl
  | cons b bs ih => exact ih

/-- From `s` to `t` the events `es` came on the trace, and they account for what the four registers hold. -/
def Appends (s t : State) (es : Trace) : Prop :=
  t.trace = s.trace ++ es ∧ busRegs t = es.foldl BusRegs.observe (busRegs s)

/-- A list of bytes written, in full or up to a stall, leaves the four registers. -/
theorem appends_map_write {s t : State} {bs : List Byte} (htrace : t.trace = s.trace ++ bs.map .write)
    (hregs : busRegs t = busRegs s) : ∃ es, Appends s t es :=
  ⟨bs.map .write, htrace, by rw [foldl_observe_map_write, hregs]⟩

theorem appends_of_ends {i : Instr} {s t : State} (h : Ends i s t) : ∃ es, Appends s t es := by
  cases h with
  | sendReadStall | sendWriteStall | sendWriteNextStall | txWriteBytesStall | txWriteBytes =>
    exact appends_map_write rfl rfl
  | sendReadMatch | sendReadMismatch | sendWriteMatch | sendWriteMismatch | sendWriteNextMatch | sendWriteNextMismatch =>
    exact ⟨_, List.append_assoc _ _ _, rfl⟩
  | validateBusMatch | validateBusMismatch | readbackMatch | readbackMismatch | txReset | txWriteBit | txReadBit
  | txWriteByte | txReadByte | txSkip | txSearchFound | txSearchNone | txResetSearch => exact ⟨_, rfl, rfl⟩
  | _ => exact ⟨[], (List.append_nil _).symm, rfl⟩

theorem appends_of_step {s t : State} (h : step s = .next t) : ∃ es, Appends s t es := by
  obtain ⟨-, w, -, ⟨i, -, rfl⟩ | ⟨e, -, rfl⟩⟩ := step_cases h
  · exact appends_of_ends (effectOf_ends _ i s)
  · exact ⟨[], (List.append_nil _).symm, rfl⟩

/-- Settles O53: the events a step appends do to the registers what they do to the trace's record of them. -/
theorem stepKeepsRegistersInAgreementWithTrace : Obligations.StepKeepsRegistersInAgreementWithTrace := by
  unfold Obligations.StepKeepsRegistersInAgreementWithTrace
  intro s t hs h
  obtain ⟨es, htrace, hregs⟩ := appends_of_step h
  rw [agreesWithTrace_iff] at hs ⊢
  rw [hregs, hs, htrace, recordedBy_append]

/-- Settles O52: nothing is recorded and the trace is empty. -/
theorem registersAgreeWithTraceAfterReset : Obligations.RegistersAgreeWithTraceAfterReset := by
  unfold Obligations.RegistersAgreeWithTraceAfterReset
  exact (agreesWithTrace_iff State.reset).mpr rfl

/-- Settles O47: a step appends events, or none. -/
theorem traceOnlyGrows : Obligations.TraceOnlyGrows := by
  unfold Obligations.TraceOnlyGrows
  intro s t h
  obtain ⟨es, htrace, -⟩ := appends_of_step h
  exact ⟨es, htrace.symm⟩

end Sys2Proof.Proofs
end

section
/-! PROOF. The register invariant (42_frame_codec.md R132, 10_state.md R26, R29). -/

namespace Sys2Proof.Proofs
open Sys2Proof Sys2Proof.Machine Sys2Proof.Safety Sys2Proof.Claims

/-- EXP and OBS are both written, by a command that compares, or both left. -/
theorem exp_obs_cases_of_ends {i : Instr} {s t : State} (h : Ends i s t) :
    (t.exp = s.exp ∧ t.obs = s.obs) ∨
      ((crcChecker i = true ∨ isReadback i = true) ∧ t.exp ≠ none ∧ t.obs ≠ none) := by
  cases h with
  | checkIdMatch | checkIdMismatch | validateMatch | validateMismatch | validateBusMatch | validateBusMismatch
  | sendReadMatch | sendReadMismatch | sendWriteMatch | sendWriteMismatch | sendWriteNextMatch
  | sendWriteNextMismatch => exact .inr ⟨.inl rfl, nofun, nofun⟩
  | readbackMatch | readbackMismatch => exact .inr ⟨.inr rfl, nofun, nofun⟩
  | _ => exact .inl ⟨rfl, rfl⟩

theorem exp_none_iff_obs_none_of_ends {i : Instr} {s t : State} (h : Ends i s t) (hs : s.exp = none ↔ s.obs = none) :
    t.exp = none ↔ t.obs = none := by
  obtain ⟨hexp, hobs⟩ | ⟨-, hexp, hobs⟩ := exp_obs_cases_of_ends h
  · rw [hexp, hobs, hs]
  · exact iff_of_false hexp hobs

theorem errByte_toNat_le_five (e : ErrCode) : (errByte e).toNat ≤ 5 := by cases e <;> decide

theorem err_le_five_of_step {s t : State} (h : step s = .next t) (hs : s.err.toNat ≤ 5) : t.err.toNat ≤ 5 := by
  obtain hfin | hunf := finished_or_unfinished_of_step h
  · obtain ⟨e, v, herr, -⟩ := hfin.returned
    rw [herr]
    exact errByte_toNat_le_five e
  · rwa [hunf.err]

theorem resps_length_eq_pc_of_step {s t : State} (h : step s = .next t) (hs : s.resps.length = s.pc) :
    t.resps.length = t.pc := by
  obtain hfin | hunf := finished_or_unfinished_of_step h
  · obtain ⟨e, v, -, hresps⟩ := hfin.returned
    rw [hresps, hfin.pc, List.length_append, hs, List.length_singleton]
  · rw [hunf.resps, hunf.pc, hs]

/-- Settles O51, clause by clause. -/
theorem stepKeepsRegistersOk : Obligations.StepKeepsRegistersOk := by
  unfold Obligations.StepKeepsRegistersOk
  rintro s t ⟨hwaddr, hcompared, herr, hresps⟩ h
  obtain ⟨-, hstep, -⟩ := openWritePhaseHasAWriteAddress
  refine ⟨hstep s t hwaddr h, ?_, err_le_five_of_step h herr, resps_length_eq_pc_of_step h hresps⟩
  obtain ⟨-, w, -, ⟨i, -, rfl⟩ | ⟨e, -, rfl⟩⟩ := step_cases h
  · exact exp_none_iff_obs_none_of_ends (effectOf_ends _ i s) hcompared
  · exact hcompared

/-- Settles O50: the write phase is closed, nothing was compared, ERR is E_NONE and nothing has finished. -/
theorem registersOkAfterReset : Obligations.RegistersOkAfterReset := by
  unfold Obligations.RegistersOkAfterReset
  exact ⟨fun h => absurd rfl h, Iff.rfl, Nat.zero_le 5, rfl⟩

end Sys2Proof.Proofs
end

section
/-! PROOF. The frame of every command, register by register (10_state.md R20-R44): an end that changes a register belongs to a
command that the spec names as its writer. -/

namespace Sys2Proof.Proofs
open Sys2Proof Sys2Proof.Machine Sys2Proof.Claims

section
variable {i : Instr} {s t : State} (h : Ends i s t)
include h

theorem fb_eq_of_ends (hi : writesFb i = false) : t.fb = s.fb := by
  cases h with
  | buildRead | buildWrite | sendReadStall | sendReadMatch | sendReadMismatch | sendWriteStall | sendWriteMatch
  | sendWriteMismatch | sendWriteNextStall | sendWriteNextMatch | sendWriteNextMismatch | txSearchFound | fbWr =>
    cases hi
  | _ => rfl

theorem flen_eq_of_ends (hi : writesFlen i = false) : t.flen = s.flen := by
  cases h with
  | buildRead | buildWrite | sendReadStall | sendReadMatch | sendReadMismatch | sendWriteStall | sendWriteMatch
  | sendWriteMismatch | sendWriteNextStall | sendWriteNextMatch | sendWriteNextMismatch | txSearchFound | setLen =>
    cases hi
  | _ => rfl

theorem rxb_eq_of_ends (hi : readsByte i = false) : t.rxb = s.rxb := by
  cases h with
  | validateBusMatch | validateBusMismatch | sendReadMatch | sendReadMismatch | sendWriteMatch | sendWriteMismatch
  | sendWriteNextMatch | sendWriteNextMismatch | readbackMatch | readbackMismatch | txReadByte => cases hi
  | _ => rfl

theorem exp_obs_eq_of_ends (hcrc : crcChecker i = false) (hrb : isReadback i = false) :
    t.exp = s.exp ∧ t.obs = s.obs := by
  obtain hkeep | ⟨hcrc' | hrb', -⟩ := exp_obs_cases_of_ends h
  · exact hkeep
  · cases hcrc.symm.trans hcrc'
  · cases hrb.symm.trans hrb'

theorem waddr_eq_of_ends (hi : sendsWrite i = false) : t.waddr = s.waddr := by
  cases h with
  | sendWriteStall | sendWriteMatch | sendWriteMismatch | sendWriteNextStall | sendWriteNextMatch
  | sendWriteNextMismatch => cases hi
  | _ => rfl

theorem wph_eq_of_ends (hi : writesWph i = false) : t.wph = s.wph := by
  cases h with
  | checkIdMismatch | validateMismatch | validateBusMismatch | sendReadStall | sendReadMatch | sendReadMismatch
  | sendWriteStall | sendWriteMatch | sendWriteMismatch | sendWriteNextStall | sendWriteNextMatch
  | sendWriteNextMismatch | readbackMatch | readbackMismatch | txReset | txSearchFound | txSearchNone => cases hi
  | _ => rfl

theorem err_pc_resps_eq_of_ends (hpc : t.pc ≠ s.pc + 1) : t.err = s.err ∧ t.pc = s.pc ∧ t.resps = s.resps := by
  obtain hfin | hunf := finished_or_unfinished_of_ends h
  · exact absurd hfin.pc hpc
  · exact ⟨hunf.err, hunf.pc, hunf.resps⟩

theorem pres_eq_of_ends (hi : i ≠ .txReset) : t.pres = s.pres := by
  cases h with
  | txReset => exact absurd rfl hi
  | _ => rfl

theorem found_eq_of_ends (hi : i ≠ .txSearch) : t.found = s.found := by
  cases h with
  | txSearchFound | txSearchNone => exact absurd rfl hi
  | _ => rfl

theorem crcOk_eq_of_ends (hi : crcChecker i = false) : t.crcOk = s.crcOk := by
  cases h with
  | checkIdMatch | checkIdMismatch | validateMatch | validateMismatch | validateBusMatch | validateBusMismatch
  | sendReadMatch | sendReadMismatch | sendWriteMatch | sendWriteMismatch | sendWriteNextMatch
  | sendWriteNextMismatch => cases hi
  | _ => rfl

theorem vfyOk_eq_of_ends (hi : isReadback i = false) : t.vfyOk = s.vfyOk := by
  cases h with
  | readbackMatch | readbackMismatch => cases hi
  | _ => rfl

theorem sexh_eq_of_ends (hi : i ≠ .txSearch) (hi' : i ≠ .txResetSearch) : t.sexh = s.sexh := by
  cases h with
  | txSearchFound | txSearchNone => exact absurd rfl hi
  | txResetSearch => exact absurd rfl hi'
  | _ => rfl

theorem dirty_eq_of_ends (hcrc : crcChecker i = false) (hrb : isReadback i = false) (hi : i ≠ .txReset) :
    t.dirty = s.dirty := by
  cases h with
  | checkIdMismatch | validateMismatch | validateBusMismatch | sendReadMismatch | sendWriteMismatch
  | sendWriteNextMismatch => cases hcrc
  | readbackMismatch => cases hrb
  | txReset => exact absurd rfl hi
  | _ => rfl

theorem trace_stalled_eq_of_ends (hi : offBus i = true) : t.trace = s.trace ∧ t.stalled = s.stalled := by
  cases h with
  | nop | crcInit | crcUpdate | checkIdNoValue | checkIdMatch | checkIdMismatch | buildRead | buildWrite
  | validateNoValue | validateMatch | validateMismatch | fbWrOperand | fbWr | fbRdOperand | fbRdNoValue | fbRd
  | setLenOperand | setLen | regRdOperand | regRdNoValue | regRd => exact ⟨rfl, rfl⟩
  | _ => cases hi

theorem faulted_eq_of_ends (hi : mayFault i = false) : t.faulted = s.faulted := by
  cases h with
  | checkIdNoValue | validateNoValue | validateBusNoValue | sendWriteNextNoValue | txWriteBytesNoValue | fbRdNoValue
  | regRdNoValue => cases hi
  | _ => rfl

end

/-- Settles O41, register by register. -/
theorem registersAreLeftByAllButTheirWriters : Obligations.RegistersAreLeftByAllButTheirWriters := by
  unfold Obligations.RegistersAreLeftByAllButTheirWriters
  intro i s t h
  have hends := ends_of_exec h
  exact ⟨fb_eq_of_ends hends, flen_eq_of_ends hends, crc_eq_of_ends hends, rxb_eq_of_ends hends,
    exp_obs_eq_of_ends hends, waddr_eq_of_ends hends, wph_eq_of_ends hends, err_pc_resps_eq_of_ends hends,
    pres_eq_of_ends hends, found_eq_of_ends hends, crcOk_eq_of_ends hends, vfyOk_eq_of_ends hends,
    sexh_eq_of_ends hends, dirty_eq_of_ends hends, trace_stalled_eq_of_ends hends, faulted_eq_of_ends hends,
    params_stream_eq_of_ends hends⟩

end Sys2Proof.Proofs
end

section
/-! PROOF. Why a command finishes with the code it does (60_exceptions.md R211, R212): one case per code. -/

namespace Sys2Proof.Proofs
open Sys2Proof Sys2Proof.Machine Sys2Proof.Claims

/-! Operands out of range, in the operands that the machine fetches. -/

theorem operandOutOfRange_eq_not_wellFormed (i : Instr) : operandOutOfRange i = !i.wellFormed := by
  cases i with
  | fbWr | fbRd | setLen | txWriteBytes | regRd =>
    simp only [operandOutOfRange, Instr.wellFormed, ← decide_not, Nat.not_lt, Nat.not_le]
  | _ => rfl

section
variable (a : Word16) (d : Byte)

@[simp] theorem operandOutOfRange_fbWr : operandOutOfRange (.fbWr a d) = (idxOperand a).isNone := by
  rw [operandOutOfRange_eq_not_wellFormed, wellFormed_fbWr, Option.not_isSome]

@[simp] theorem operandOutOfRange_fbRd : operandOutOfRange (.fbRd a) = (idxOperand a).isNone := by
  rw [operandOutOfRange_eq_not_wellFormed, wellFormed_fbRd, Option.not_isSome]

@[simp] theorem operandOutOfRange_setLen : operandOutOfRange (.setLen d) = (lenOperand d).isNone := by
  rw [operandOutOfRange_eq_not_wellFormed, wellFormed_setLen, Option.not_isSome]

@[simp] theorem operandOutOfRange_txWriteBytes : operandOutOfRange (.txWriteBytes d) = (lenOperand d).isNone := by
  rw [operandOutOfRange_eq_not_wellFormed, wellFormed_txWriteBytes, Option.not_isSome]

@[simp] theorem operandOutOfRange_regRd : operandOutOfRange (.regRd d) = (selOperand d).isNone := by
  rw [operandOutOfRange_eq_not_wellFormed, wellFormed_regRd, Option.not_isSome]

end

/-- The rows of R211 that a legal command can finish by. -/
inductive FinishCause (i : Instr) (s t : State) : Prop where
  | success (err : t.err = 0x00) (phase : outOfPhase i s.wph = false) (operand : operandOutOfRange i = false)
  | crcMismatch (err : t.err = 0x01) (phase : outOfPhase i s.wph = false) (operand : operandOutOfRange i = false)
      (command : crcChecker i = true) (values : t.exp ≠ t.obs) (crcOk : t.crcOk = false) (dirty : t.dirty = true)
      (wph : t.wph = .idle)
  | verifyMismatch (err : t.err = 0x02) (phase : outOfPhase i s.wph = false) (operand : operandOutOfRange i = false)
      (command : isReadback i = true) (values : t.exp ≠ t.obs) (rxb : t.rxb = t.obs) (vfyOk : t.vfyOk = false)
      (dirty : t.dirty = true) (wph : t.wph = .idle)
  | seqRefused (result : t = finish .eSeq 0x00 s) (phase : outOfPhase i s.wph = true)
      (operand : operandOutOfRange i = false)
  | operandRefused (result : t = finish .eOperand 0x00 s) (phase : outOfPhase i s.wph = false)
      (operand : operandOutOfRange i = true)

theorem finishCause_of_ends {i : Instr} {s t : State} (h : Ends i s t) (hpc : t.pc = s.pc + 1) :
    FinishCause i s t := by
  cases h with
  | checkIdMismatch s bs b _ _ hc | validateMismatch s b bs _ hc | validateBusMismatch s bs b _ hc
  | sendReadMismatch s a b hc | sendWriteMismatch s a d b hc =>
    exact .crcMismatch rfl rfl rfl rfl (mt Option.some.inj hc) rfl rfl rfl
  | sendWriteNextMismatch s d w b hready _ hc =>
    exact .crcMismatch rfl (by simp [outOfPhase, hready]) rfl rfl (mt Option.some.inj hc) rfl rfl rfl
  | readbackMismatch s d b hawait hc =>
    exact .verifyMismatch rfl (by simp [outOfPhase, hawait]) rfl rfl (mt Option.some.inj (Ne.symm hc)) rfl rfl rfl rfl
  | sendWriteNextSeq s d hphase | readbackSeq s d hphase => exact .seqRefused rfl (by simp [outOfPhase, hphase]) rfl
  | txWriteBytesOperand s _ hop | fbWrOperand s _ _ hop | fbRdOperand s _ hop | setLenOperand s _ hop
  | regRdOperand s _ hop => exact .operandRefused rfl rfl (by simp [hop])
  | sendWriteNextMatch s d w b hphase | readbackMatch s d b hphase =>
    exact .success rfl (by simp [outOfPhase, hphase]) rfl
  | txWriteBytes s _ _ _ hop | fbWr s _ _ _ hop | fbRd s _ _ _ hop | setLen s _ _ hop | regRd s _ _ _ hop =>
    exact .success rfl rfl (by simp [hop])
  | nop | crcInit | crcUpdate | checkIdMatch | buildRead | buildWrite | validateMatch | validateBusMatch | sendReadMatch
  | sendWriteMatch | txReset | txWriteBit | txReadBit | txWriteByte | txReadByte | txSkip | txSearchFound | txSearchNone
  | txResetSearch => exact .success rfl rfl rfl
  -- The ends left are those of a command that does not finish.
  | _ => simp at hpc

/-- Settles O43, by the cause of each code. -/
theorem errorCodesHaveTheirCauses : Obligations.ErrorCodesHaveTheirCauses := by
  unfold Obligations.ErrorCodesHaveTheirCauses
  refine ⟨fun i s t h hpc => ?_, fun s t w e hw hd h => ?_⟩
  · cases finishCause_of_ends (ends_of_exec h) hpc with
    | success err phase operand => simp [err, phase, operand]
    | crcMismatch err phase operand command values crcOk dirty wph =>
      simp [err, phase, operand, command, values, crcOk, dirty, wph]
    | verifyMismatch err phase operand command values rxb vfyOk dirty wph =>
      simp [err, phase, operand, command, values, rxb, vfyOk, dirty, wph]
    | seqRefused result phase operand => simp [result, errByte, phase, operand]
    | operandRefused result phase operand => simp [result, errByte, phase, operand]
  · rw [eq_finish_of_step_of_decode_error hw hd h]
    rfl

/-- Settles O44: a refusal is finish alone. -/
theorem refusedCommandsHaveNoOtherEffect : Obligations.RefusedCommandsHaveNoOtherEffect := by
  unfold Obligations.RefusedCommandsHaveNoOtherEffect
  refine ⟨fun i s t h hpc herr => ?_, fun s t w e hw hd h => eq_finish_of_step_of_decode_error hw hd h⟩
  cases finishCause_of_ends (ends_of_exec h) hpc with
  | seqRefused result | operandRefused result =>
    subst result
    rfl
  | success err | crcMismatch err | verifyMismatch err => simp [err] at herr

end Sys2Proof.Proofs
end

section
/-! PROOF. Stalls (00_scope.md R13, 60_exceptions.md R217): what a stall needs and leaves, and the state at the stall of any
transaction of a frame and its echo read. -/

namespace Sys2Proof.Proofs
open Sys2Proof Sys2Proof.Machine Sys2Proof.Safety Sys2Proof.Claims

theorem busDo_of_stalls {o : Oracle} {op : BusOp} {s : State} (hb : s.params.busAlwaysReturns = false)
    (h : o.stalls s.trace op = true) (k : State → State) : busDo o op s k = markStalled s := by
  simp [busDo, busStalls, hb, h]

theorem busDo_of_not_stalls {o : Oracle} {op : BusOp} {s : State} (h : o.stalls s.trace op = false)
    (k : State → State) : busDo o op s k = k s := by
  simp [busDo, busStalls, h]

/-- Transaction `j` of a frame and its echo read. -/
def frameOp (bs : List Byte) (j : Nat) : BusOp :=
  match bs[j]? with
  | some b => .write b
  | none => .read

/-- The trace before transaction `j` of a frame sent after the trace `t`. -/
def traceBefore (t : Trace) (bs : List Byte) (j : Nat) : Trace := t ++ (bs.take j).map .write

theorem traceBefore_zero (t : Trace) (bs : List Byte) : traceBefore t bs 0 = t := List.append_nil t

theorem traceBefore_cons_succ (t : Trace) (b : Byte) (bs : List Byte) (j : Nat) :
    traceBefore t (b :: bs) (j + 1) = traceBefore (t ++ [.write b]) bs j := by
  simp [traceBefore]

/-- A frame that first stalls at transaction `n` has appended the bytes before it, and does no more. -/
theorem busWrites_busRead_of_stall {o : Oracle} {bs : List Byte} {n : Nat} {s : State}
    (k : Byte → State → State) (hb : s.params.busAlwaysReturns = false) (hn : n ≤ bs.length)
    (hpast : ∀ j, j < n → o.stalls (traceBefore s.trace bs j) (frameOp bs j) = false)
    (hstall : o.stalls (traceBefore s.trace bs n) (frameOp bs n) = true) :
    (busWrites o bs s fun u => busRead o u k) = markStalled { s with trace := traceBefore s.trace bs n } := by
  induction bs generalizing n s with
  | nil =>
    obtain rfl : n = 0 := Nat.le_zero.mp hn
    rw [traceBefore_zero] at hstall ⊢
    rw [busWrites, busRead, busDo_of_stalls (op := .read) hb hstall]
  | cons b bs ih =>
    cases n with
    | zero =>
      rw [traceBefore_zero] at hstall ⊢
      rw [busWrites, busWrite, busDo_of_stalls (op := .write b) hb hstall]
    | succ n =>
      have hfirst : o.stalls s.trace (.write b) = false := traceBefore_zero s.trace _ ▸ hpast 0 (Nat.succ_pos n)
      rw [busWrites, busWrite, busDo_of_not_stalls hfirst, traceBefore_cons_succ]
      rw [traceBefore_cons_succ] at hstall
      exact ih (s := logEvent (.write b) s) hb (Nat.le_of_succ_le_succ hn)
        (fun j hj => traceBefore_cons_succ .. ▸ hpast (j + 1) (Nat.succ_lt_succ hj)) hstall

/-- FC_SEND_READ stalled at transaction `n` has written WPH, FB and FLEN (42_frame_codec.md R124). -/
theorem sendRead_of_stall {o : Oracle} {s : State} {a : Word16} {n : Nat} (hb : s.params.busAlwaysReturns = false)
    (hn : n ≤ 3) (hpast : ∀ j, j < n → o.stalls (traceBefore s.trace (readFrame a) j) (frameOp (readFrame a) j) = false)
    (hstall : o.stalls (traceBefore s.trace (readFrame a) n) (frameOp (readFrame a) n) = true) :
    sendRead o a s =
      { withReadFrame a s with wph := .idle, trace := traceBefore s.trace (readFrame a) n, stalled := true } := by
  rw [sendRead, putReadFrame_eq_withReadFrame]
  exact busWrites_busRead_of_stall (s := withReadFrame a { s with wph := .idle }) _ hb hn hpast hstall

/-- Settles O46: a command that does not finish and left FAULTED unset stalled; and FC_SEND_READ is one frame. -/
theorem stallKeepsWhatTheCommandDidBefore : Obligations.StallKeepsWhatTheCommandDidBefore := by
  unfold Obligations.StallKeepsWhatTheCommandDidBefore
  refine ⟨fun i s t hrun h => ?_, ?_⟩
  · have hends := ends_of_exec h
    obtain ⟨hnofault, hnostall⟩ := hrun
    obtain hfin | hunf := finished_or_unfinished_of_ends hends
    · exact .inl (hfin.stalled.trans hnostall)
    · obtain ⟨-, hkeep⟩ | ⟨hkeep, hstalled, hb⟩ := hunf.mark
      · exact .inl (hkeep.trans hnostall)
      · obtain ⟨es, htrace, -⟩ := appends_of_ends hends
        exact .inr ⟨hb, hunf.pc, hunf.resps, hunf.err, ⟨es, htrace.symm⟩,
          step_of_stalled (hkeep.trans hnofault) hstalled, not_ended_of_stalled hstalled⟩
  · intro o s a k hk hb frame op before hpast hstall
    have hframe : readFrame a = frame := readFrame_eq a
    have h := sendRead_of_stall (o := o) (s := s) (a := a) hb (Nat.le_of_lt_succ hk)
    rw [hframe] at h
    exact h hpast hstall

end Sys2Proof.Proofs
end

section
/-! PROOF. A closed write sequence stays closed (42_frame_codec.md R129, R131): only FC_SEND_WRITE leaves IDLE. -/

namespace Sys2Proof.Proofs
open Sys2Proof Sys2Proof.Machine Sys2Proof.Claims

/-- Outside READY every end of FC_SEND_WRITE_NEXT is its refusal. -/
theorem exec_fcSendWriteNext_of_ne_ready {s : State} (d : Byte) (h : s.wph ≠ .ready) :
    exec (.fcSendWriteNext d) s = .next (returns 0x03 0x00 s) := by
  rw [exec_eq_next, effectOf, sendWriteNext_of_ne_ready _ d h]

theorem wph_idle_of_ends {i : Instr} {s t : State} (h : Ends i s t) (hi : isSendWrite i = false)
    (hs : s.wph = .idle) : t.wph = .idle := by
  cases h with
  | sendWriteMatch => cases hi
  -- The other two openings ask for READY and for AWAIT_RB.
  | sendWriteNextMatch s d w b hphase | readbackMatch s d b hphase => cases hs.symm.trans hphase
  | sendReadStall | sendReadMatch | sendReadMismatch | sendWriteStall | sendWriteMismatch | sendWriteNextStall
  | sendWriteNextMismatch | readbackMismatch | checkIdMismatch | validateMismatch | validateBusMismatch | txReset
  | txSearchFound | txSearchNone => rfl
  | _ => exact hs

theorem wph_idle_of_execAll {is : List Instr} {s t : State} (his : ∀ i ∈ is, isSendWrite i = false)
    (hs : s.wph = .idle) (h : execAll is s = .next t) : t.wph = .idle := by
  induction is generalizing s with
  | nil =>
    cases h
    exact hs
  | cons i is ih =>
    rw [execAll_cons] at h
    obtain ⟨hi, his⟩ := List.forall_mem_cons.mp his
    exact ih his (wph_idle_of_ends (effectOf_ends _ i s) hi hs) h

/-- Settles O21, by induction on the list of commands. -/
theorem closedSequenceSendsNothingMore : Obligations.ClosedSequenceSendsNothingMore := by
  unfold Obligations.ClosedSequenceSendsNothingMore
  intro is s t d his hs h
  have hidle := wph_idle_of_execAll his hs h
  exact ⟨hidle, exec_fcSendWriteNext_of_ne_ready d (by simp [hidle])⟩

end Sys2Proof.Proofs
end

section
/-! PROOF. The host sequences (30_encoding.md R85): what issuing one command does, and CRC_OF. -/

namespace Sys2Proof.Proofs
open Sys2Proof Sys2Proof.Machine Sys2Proof.Safety Sys2Proof.Claims

/-- The state in which an issued command runs: its word is in the stream at pc (log 16). -/
def placed (i : Instr) (s : State) : State := s.withFetchWord 32 (encode i).toNat

theorem issue_of_running {s : State} (hs : Running s) (i : Instr) :
    issue i s = .next (effectOf Config.oracle i (placed i s)) := by
  have hword : BitVec.ofNat 32 ((encode i).toNat % 2 ^ 32) = encode i := by
    rw [Nat.mod_eq_of_lt (encode i).isLt, BitVec.ofNat_toNat, BitVec.setWidth_eq]
  have hfetch : (placed i s).stream[(placed i s).pc]? = some (encode i) := by
    rw [placed, withFetchWord_stream, withFetchWord_pc, hword, placeWord_get]
  rw [issue, ← exec_eq_next]
  exact step_of_decode hs.left hs.right hfetch (decode_encode i)

/-- A command issued to a running block, when the block still runs after it. -/
theorem runHost_cmd_of_running {i : Instr} {items : List HostItem} {s : State} (hs : Running s)
    (hu : Running (effectOf Config.oracle i (placed i s))) :
    runHost (.cmd i :: items) s = runHost items (effectOf Config.oracle i (placed i s)) := by
  rw [runHost, issue_of_running hs]
  exact if_pos ((haltReason_eq_none_iff _).mpr hu)

/-- A host run that ends in a running block ran its first command to the end. -/
theorem runHost_cmd_inv {i : Instr} {items : List HostItem} {s t : State} (hs : Running s)
    (h : runHost (.cmd i :: items) s = .next t) (ht : Running t) :
    ∃ u, Ends i (placed i s) u ∧ Running u ∧ runHost items u = .next t := by
  by_cases hu : Running (effectOf Config.oracle i (placed i s))
  · rw [runHost_cmd_of_running hs hu] at h
    exact ⟨_, effectOf_ends _ _ _, hu, h⟩
  · rw [runHost, issue_of_running hs] at h
    simp only [(haltReason_eq_none_iff _).not.mpr hu, if_false] at h
    cases h
    exact absurd ht hu

theorem runHost_crcUpdates (bs : List Byte) {s : State} (hs : Running s) :
    ∃ t, runHost (bs.map fun b => .cmd (.crcUpdate b)) s = .next t ∧
      t.crc = bs.foldl (crc8Step s.params.crc8) s.crc ∧ t.trace = s.trace ∧ t.pc = s.pc + bs.length := by
  induction bs generalizing s with
  | nil => exact ⟨s, rfl, rfl, rfl, rfl⟩
  | cons b bs ih =>
    have hu : Running (effectOf Config.oracle (.crcUpdate b) (placed (.crcUpdate b) s)) := hs
    obtain ⟨t, hrun, hcrc, htrace, hpc⟩ := ih hu
    refine ⟨t, ?_, hcrc, htrace, ?_⟩
    · rw [List.map_cons, runHost_cmd_of_running hs hu, hrun]
    · have hfirst : (effectOf Config.oracle (.crcUpdate b) (placed (.crcUpdate b) s)).pc = s.pc + 1 := rfl
      rw [hpc, hfirst, List.length_cons, Nat.add_right_comm, Nat.add_assoc]

/-- Settles O54: CRC_INIT loads the value that the fold of CRC_UPDATE starts from. -/
theorem crcOfSequenceComputesTheCrc : Obligations.CrcOfSequenceComputesTheCrc := by
  unfold Obligations.CrcOfSequenceComputesTheCrc
  intro s bs hs
  have hu : Running (effectOf Config.oracle .crcInit (placed .crcInit s)) := hs
  obtain ⟨t, hrun, hcrc, htrace, hpc⟩ := runHost_crcUpdates bs hu
  refine ⟨t, ?_, hcrc, htrace, ?_⟩
  · rw [crcOf, runHost_cmd_of_running hs hu, hrun]
  · have hfirst : (effectOf Config.oracle .crcInit (placed .crcInit s)).pc = s.pc + 1 := rfl
    rw [hpc, hfirst, Nat.add_right_comm]

end Sys2Proof.Proofs
end

section
/-! PROOF. The write batch (42_frame_codec.md R131). A byte of the batch is a frame sent and a readback; each goes well, and the
batch goes on, or fails, and the host stops. -/

namespace Sys2Proof.Proofs
open Sys2Proof Sys2Proof.Machine Sys2Proof.Safety Sys2Proof.Claims

/-! One byte of the batch. -/

/-- The bus events of byte `k` of a batch at `a`, echoed with `e`. -/
def frameEvents (a : Word16) (k : Nat) (d e : Byte) : Trace := (batchSent a k d).map .write ++ [.read e]

/-- From `s` to `u` the frame of byte `k` of a batch at `a` went out and its echo came back: right, and the block awaits the
readback, or wrong, and the sequence is closed. -/
structure FrameSent (a : Word16) (k : Nat) (d : Byte) (s u : State) (e : Byte) : Prop where
  trace : u.trace = s.trace ++ frameEvents a k d e
  params : u.params = s.params
  echo : (e = batchEcho s.params a k d ∧ u.err = 0x00 ∧ u.wph = .awaitRb ∧ u.waddr = some (a + BitVec.ofNat 16 k)) ∨
    (e ≠ batchEcho s.params a k d ∧ u.err = 0x01 ∧ u.wph = .idle)

/-- Placing a command in the stream leaves the trace and the parameters. -/
theorem FrameSent.of_placed {i : Instr} {a : Word16} {k : Nat} {d e : Byte} {s u : State}
    (h : FrameSent a k d (placed i s) u e) : FrameSent a k d s u e :=
  ⟨h.trace, h.params, h.echo⟩

/-- From `u` to `v` the byte `o` was read back for the byte `d`: equal, and the block is ready for the next one, or
different, and the sequence is closed. -/
structure ReadBack (d : Byte) (u v : State) (o : Byte) : Prop where
  trace : v.trace = u.trace ++ [.read o]
  params : v.params = u.params
  value : (o = d ∧ v.err = 0x00 ∧ v.wph = .ready ∧ v.waddr = u.waddr) ∨ (o ≠ d ∧ v.err = 0x02 ∧ v.wph = .idle)

theorem batchEcho_zero (p : Params) (a : Word16) (d : Byte) : batchEcho p a 0 d = crc8 p.crc8 (writeFrame a d) := by
  rw [batchEcho, if_pos rfl, writeFrame_eq_frame4]

theorem add_ofNat_succ (a : Word16) (k : Nat) : a + BitVec.ofNat 16 (k + 1) = a + BitVec.ofNat 16 k + 1 := by
  rw [BitVec.ofNat_add, BitVec.add_assoc]
  rfl

theorem batchEcho_succ (p : Params) (a : Word16) (k : Nat) (d : Byte) :
    batchEcho p a (k + 1) d = crc8 p.crc8 (wrNextBytes p.wrNextScope (a + BitVec.ofNat 16 k + 1) d) := by
  rw [batchEcho, if_neg (Nat.succ_ne_zero k), add_ofNat_succ]

section
variable {s u : State} (hu : Running u)
include hu

theorem frameSent_of_ends_fcSendWrite {a : Word16} {d : Byte} (h : Ends (.fcSendWrite a d) s u) :
    ∃ e, FrameSent a 0 d s u e := by
  have hsent (e : Byte) : frameEvents a 0 d e = (writeFrame a d).map .write ++ [.read e] := by
    rw [frameEvents, batchSent, if_pos rfl, writeFrame_eq_frame4]
  cases h with
  | sendWriteStall => cases hu.right
  | sendWriteMatch s a d b hc =>
    exact ⟨b, by rw [hsent]; exact List.append_assoc _ _ _, rfl, .inl ⟨by rw [batchEcho_zero, hc], rfl, rfl, by simp⟩⟩
  | sendWriteMismatch s a d b hc =>
    exact ⟨b, by rw [hsent]; exact List.append_assoc _ _ _, rfl,
      .inr ⟨by rw [batchEcho_zero]; exact Ne.symm hc, rfl, rfl⟩⟩

theorem frameSent_of_ends_fcSendWriteNext {a : Word16} {k : Nat} {d : Byte} (h : Ends (.fcSendWriteNext d) s u)
    (hready : s.wph = .ready) (hwaddr : s.waddr = some (a + BitVec.ofNat 16 k)) :
    ∃ e, FrameSent a (k + 1) d s u e := by
  cases h with
  | sendWriteNextSeq s d hne => exact absurd hready hne
  | sendWriteNextNoValue => cases hu.left
  | sendWriteNextStall => cases hu.right
  | sendWriteNextMatch s d w b _ hw hc =>
    obtain rfl : w = a + BitVec.ofNat 16 k := Option.some.inj (hw.symm.trans hwaddr)
    exact ⟨b, List.append_assoc _ _ _, rfl, .inl ⟨by rw [batchEcho_succ, hc], rfl, rfl, by rw [add_ofNat_succ]; rfl⟩⟩
  | sendWriteNextMismatch s d w b _ hw hc =>
    obtain rfl : w = a + BitVec.ofNat 16 k := Option.some.inj (hw.symm.trans hwaddr)
    exact ⟨b, List.append_assoc _ _ _, rfl, .inr ⟨by rw [batchEcho_succ]; exact Ne.symm hc, rfl, rfl⟩⟩

theorem readBack_of_ends_fcReadback {d : Byte} (h : Ends (.fcReadback d) s u) (hawait : s.wph = .awaitRb) :
    ∃ o, ReadBack d s u o := by
  cases h with
  | readbackSeq s d hne => exact absurd hawait hne
  | readbackStall => cases hu.right
  | readbackMatch s d b _ hc => exact ⟨b, rfl, rfl, .inl ⟨hc, rfl, rfl, rfl⟩⟩
  | readbackMismatch s d b _ hc => exact ⟨b, rfl, rfl, .inr ⟨hc, rfl, rfl⟩⟩

end

/-! The batch from byte `k` on. -/

/-- `t` is where a batch stops that failed at byte `k`: its echo `e` is not the CRC it must be and nothing was read back, or it
is and another byte was. -/
def FailedAt (p : Params) (a : Word16) (k : Nat) (d e : Byte) (last : Trace) (t : State) : Prop :=
  (t.err = 0x01 ∧ e ≠ batchEcho p a k d ∧ last = []) ∨
    (t.err = 0x02 ∧ e = batchEcho p a k d ∧ ∃ o, o ≠ d ∧ last = [.read o])

/-- From the trace `T` on a batch at `a`, of the bytes `ds` from byte `k` on, failed at one of them and `t` is where it stopped. -/
structure BatchFailed (p : Params) (a : Word16) (k : Nat) (ds : List Byte) (T : Trace) (t : State) : Prop where
  failure : ∃ done d rest e last, ds = done ++ d :: rest ∧
    t.trace = T ++ batchTrace p a k done ++ frameEvents a (k + done.length) d e ++ last ∧
    FailedAt p a (k + done.length) d e last t
  closed : t.wph = .idle

/-- What the host issues for the bytes after one that was read back. -/
def furtherBytes (ds : List Byte) : List HostItem := ds.flatMap fun d => .stopOnError :: writeNext d

theorem furtherBytes_cons (d : Byte) (ds : List Byte) :
    furtherBytes (d :: ds) =
      .stopOnError :: .cmd (.fcSendWriteNext d) :: .stopOnError :: .pulse :: .cmd (.fcReadback d) :: furtherBytes ds := rfl

theorem runHost_stopOnError_of_err {items : List HostItem} {s : State} (h : s.err ≠ 0x00) :
    runHost (.stopOnError :: items) s = .next s := if_neg h

theorem runHost_stopOnError_of_ok {items : List HostItem} {s : State} (h : s.err = 0x00) :
    runHost (.stopOnError :: items) s = runHost items s := if_pos h

theorem runHost_furtherBytes_of_err {ds : List Byte} {s : State} (h : s.err ≠ 0x00) :
    runHost (furtherBytes ds) s = .next s := by
  cases ds with
  | nil => rfl
  | cons d ds => exact runHost_stopOnError_of_err h

/-- A byte written and read back goes before the bytes of a batch that fails later. -/
theorem BatchFailed.cons {p : Params} {a : Word16} {k : Nat} {d : Byte} {ds : List Byte} {T : Trace} {t : State}
    (h : BatchFailed p a (k + 1) ds (T ++ frameEvents a k d (batchEcho p a k d) ++ [.read d]) t) :
    BatchFailed p a k (d :: ds) T t := by
  obtain ⟨⟨done, d', rest, e, last, rfl, htrace, hfail⟩, hclosed⟩ := h
  have hindex : k + (d :: done).length = k + 1 + done.length := by simp only [List.length_cons]; omega
  refine ⟨⟨d :: done, d', rest, e, last, rfl, ?_, ?_⟩, hclosed⟩
  · rw [hindex, htrace, batchTrace]
    simp [frameEvents]
  · rw [hindex]
    exact hfail

/-- A batch that fails at its first byte. -/
theorem batchFailed_first {p : Params} {a : Word16} {k : Nat} {d e : Byte} {ds : List Byte} {T last : Trace} {t : State}
    (htrace : t.trace = T ++ frameEvents a k d e ++ last) (hfail : FailedAt p a k d e last t)
    (hclosed : t.wph = .idle) : BatchFailed p a k (d :: ds) T t :=
  ⟨⟨[], d, ds, e, last, rfl, by simpa [batchTrace] using htrace, hfail⟩, hclosed⟩

/-- From `s` to `v` byte `k` of a batch at `a` was sent, rightly echoed and read back equal, and the next may follow. -/
structure ByteWritten (a : Word16) (k : Nat) (d : Byte) (s v : State) : Prop where
  trace : v.trace = s.trace ++ frameEvents a k d (batchEcho s.params a k d) ++ [.read d]
  params : v.params = s.params
  err : v.err = 0x00
  wph : v.wph = .ready
  waddr : v.waddr = some (a + BitVec.ofNat 16 k)

/-- Once the frame of byte `k` is out, the run stops at that byte, or the byte is written and the run goes on. -/
theorem batchFailed_or_byteWritten {a : Word16} {k : Nat} {d e : Byte} {ds : List Byte} {s u t : State}
    (hframe : FrameSent a k d s u e) (hu : Running u) (ht : Running t)
    (h : runHost (.stopOnError :: .pulse :: .cmd (.fcReadback d) :: furtherBytes ds) u = .next t) :
    BatchFailed s.params a k (d :: ds) s.trace t ∨
      ∃ v, Running v ∧ ByteWritten a k d s v ∧ runHost (furtherBytes ds) v = .next t := by
  obtain ⟨rfl, hok, hawait, hwaddr⟩ | ⟨hecho, herr, hidle⟩ := hframe.echo
  · rw [runHost_stopOnError_of_ok hok, runHost] at h
    obtain ⟨v, hends, hv, hrest⟩ := runHost_cmd_inv hu h ht
    obtain ⟨o, hback⟩ := readBack_of_ends_fcReadback hv hends hawait
    have htrace : v.trace = s.trace ++ frameEvents a k d (batchEcho s.params a k d) ++ [.read o] := by
      rw [hback.trace, placed, withFetchWord_trace, hframe.trace]
    obtain ⟨rfl, hvok, hready, hkeep⟩ | ⟨hdiff, hverr, hvidle⟩ := hback.value
    · exact .inr ⟨v, hv, ⟨htrace, hback.params.trans hframe.params, hvok, hready, hkeep.trans hwaddr⟩, hrest⟩
    · rw [runHost_furtherBytes_of_err (by simp [hverr])] at hrest
      cases hrest
      exact .inl (batchFailed_first htrace (.inr ⟨hverr, rfl, o, hdiff, rfl⟩) hvidle)
  · rw [runHost_stopOnError_of_err (by simp [herr])] at h
    cases h
    exact .inl (batchFailed_first (hframe.trace.trans (List.append_nil _).symm) (.inl ⟨herr, hecho, rfl⟩) hidle)

/-- Once the frame of byte `k` is out, a run that ends with an error failed at that byte or at a later one. -/
theorem batchFailed_of_frameSent {a : Word16} {ds : List Byte} {k : Nat} {d e : Byte} {s u t : State}
    (hframe : FrameSent a k d s u e) (hu : Running u) (ht : Running t) (herr : t.err ≠ 0x00)
    (h : runHost (.stopOnError :: .pulse :: .cmd (.fcReadback d) :: furtherBytes ds) u = .next t) :
    BatchFailed s.params a k (d :: ds) s.trace t := by
  induction ds generalizing k d e s u with
  | nil =>
    obtain hfail | ⟨v, -, hwritten, hrest⟩ := batchFailed_or_byteWritten hframe hu ht h
    · exact hfail
    · cases hrest
      exact absurd hwritten.err herr
  | cons d' ds ih =>
    obtain hfail | ⟨v, hv, hwritten, hrest⟩ := batchFailed_or_byteWritten hframe hu ht h
    · exact hfail
    · rw [furtherBytes_cons, runHost_stopOnError_of_ok hwritten.err] at hrest
      obtain ⟨w, hends, hw, hrest⟩ := runHost_cmd_inv hv hrest ht
      obtain ⟨e', hframe'⟩ := frameSent_of_ends_fcSendWriteNext hw hends hwritten.wph hwritten.waddr
      have hlater : BatchFailed v.params a (k + 1) (d' :: ds) v.trace t := ih hframe'.of_placed hw hrest
      rw [hwritten.params, hwritten.trace] at hlater
      exact hlater.cons

/-- Settles O22: the first byte's frame starts the induction over the later ones, and a closed sequence stays closed. -/
theorem writeBatchStopsAtTheFirstFailure : Obligations.WriteBatchStopsAtTheFirstFailure := by
  unfold Obligations.WriteBatchStopsAtTheFirstFailure
  intro a ds s t hds hs h ht herr
  obtain ⟨d, ds, rfl⟩ := List.exists_cons_of_ne_nil hds
  obtain ⟨u, hends, hu, hrest⟩ := runHost_cmd_inv hs h ht
  obtain ⟨e, hframe⟩ := frameSent_of_ends_fcSendWrite hu hends
  obtain ⟨⟨done, d, rest, e, last, hbytes, htrace, hfail⟩, hclosed⟩ :=
    batchFailed_of_frameSent hframe.of_placed hu ht herr hrest
  rw [Nat.zero_add] at hfail
  rw [Nat.zero_add, frameEvents, ← List.append_assoc] at htrace
  refine ⟨⟨done, d, rest, e, last, hbytes, htrace, hfail⟩, hclosed,
    fun is v d his hv => exec_fcSendWriteNext_of_ne_ready d ?_⟩
  simp [wph_idle_of_execAll his hclosed hv]

end Sys2Proof.Proofs
end

section
/-! PROOF. The wire slots of a bus event (43_transceiver.md R170, 20_memory.md R54). -/

namespace Sys2Proof.Proofs
open Sys2Proof Sys2Proof.Machine

theorem wireBits_eq (b : Byte) :
    wireBits b = [b.getLsbD 0, b.getLsbD 1, b.getLsbD 2, b.getLsbD 3, b.getLsbD 4, b.getLsbD 5, b.getLsbD 6,
      b.getLsbD 7] := rfl

theorem traceSlots_append_singleton (t es : Trace) (e : BusEvent) :
    traceSlots t (es ++ [e]) = traceSlots t es ++ wireSlots (t ++ es) e := by
  induction es generalizing t with
  | nil => simp [traceSlots]
  | cons e' es ih => simp [traceSlots, ih]

/-- Settles O55: a byte is its wire bits, a search a reset, a byte and triplets, and a trace its events in order. -/
theorem wireSlotsRefineBusEvents : Obligations.WireSlotsRefineBusEvents := by
  unfold Obligations.WireSlotsRefineBusEvents
  refine ⟨fun t b => ?_, fun t b => ?_, fun _ _ => rfl, fun _ _ => ⟨rfl, rfl⟩, fun _ => rfl, fun t r => ?_,
    traceSlots_append_singleton⟩
  · rw [wireSlots, writeSlots, wireBits_eq]
    rfl
  · rw [wireSlots, readSlots, wireBits_eq]
    rfl
  · refine ⟨Config.searchPresence t, _, rfl, by simp, fun x hx => ?_⟩
    obtain ⟨k, -, rfl⟩ := List.mem_map.mp hx
    exact ⟨_, _, _, rfl⟩

end Sys2Proof.Proofs
end
